-- ==== Sys2Proof/Word.lean ====
section
/-!
DEFINITION. The plain word types of the block, and the shape of a sparse store: a list of key and value pairs.
-/
namespace Sys2Proof

/-- One byte of a memory, a message or a buffer (R579). -/
abbrev Byte := BitVec 8

/-- A register word: 32 bits, little-endian (R12). -/
abbrev W32 := BitVec 32

/-- A scalar register of an engine (R49). -/
abbrev W64 := BitVec 64

/-- A vector register of an engine (R50). -/
abbrev VReg := BitVec 4096

/-- A register or pair as one vector (R51); a single register fills the low half. -/
abbrev Wide := BitVec 8192

/-- A predicate register (R52). -/
abbrev PReg := BitVec 512

/-- A Keccak state slot, 200 bytes (R164). -/
abbrev KSlot := BitVec 1600

/-- A byte string, byte 0 first. -/
abbrev Bytes := List Byte

/-- A sparse store: entries in strictly rising key order, none equal to what an unlisted key reads as. -/
abbrev Map (α : Type) := List (Nat × α)

end Sys2Proof
end

