-- ==== Sys2Proof/Syntax.lean ====
section
/-!
DEFINITION. The commands of the block and their operands.
-/
namespace Sys2Proof

/-- An engine: its cluster and its number in the cluster. -/
structure EngId where
  cl : BitVec 4
  en : BitVec 5
deriving DecidableEq, Repr

/-- The engine's number in the device, 32 to a cluster. -/
def EngId.idx (x : EngId) : Nat := x.cl.toNat * 32 + x.en.toNat

/-- Fields of an SR word (R110). -/
structure SR where
  sd : BitVec 5
  sa : BitVec 5
  sb : BitVec 5
  zero : BitVec 37
deriving DecidableEq, Repr

/-- Fields of an SI word (R110). -/
structure SI where
  sd : BitVec 5
  sa : BitVec 5
  sb : BitVec 5
  zero : BitVec 5
  imm : BitVec 32
deriving DecidableEq, Repr

/-- A scalar operation that has a register form and an immediate form (R118). -/
inductive SForm
  | sr (f : SR)
  | si (f : SI)
deriving DecidableEq, Repr

/-- Fields of a CF word (R110). -/
structure CF where
  zero : BitVec 20
  t : BitVec 12
  n : BitVec 20
deriving DecidableEq, Repr

/-- Fields of a VV, SH or KC word; in KC words `w` carries ORD (R110). -/
structure VV where
  w : BitVec 2
  pr : Bool
  pm : BitVec 3
  vd : BitVec 5
  va : BitVec 5
  vb : BitVec 5
  vc : BitVec 5
  ss : BitVec 5
  ms : BitVec 3
  zero : BitVec 2
  imm : BitVec 16
deriving DecidableEq, Repr

/-- Fields of a VM word (R110). -/
structure VM where
  w : BitVec 2
  pr : Bool
  pm : BitVec 3
  vd : BitVec 5
  sa : BitVec 5
  vi : BitVec 5
  pd : BitVec 3
  nf : BitVec 2
  sc : BitVec 2
  zero : BitVec 4
  off : BitVec 20
deriving DecidableEq, Repr

/-- Fields of a VP word (R110). -/
structure VP where
  pd : BitVec 3
  pa : BitVec 3
  pb : BitVec 3
  sd : BitVec 5
  sa : BitVec 5
  zero : BitVec 33
deriving DecidableEq, Repr

/-- Fields of a KP word (R110). -/
structure KP where
  ts : Bool
  key : BitVec 2
  blk : BitVec 8
  sa : BitVec 5
  sb : BitVec 5
  sc : BitVec 5
  zero : BitVec 26
deriving DecidableEq, Repr

/-- How a read of host memory fails (R364). -/
inductive ReadError
  | unsupported | abort | poisoned | timeout
deriving DecidableEq, Repr

/-- A read of an entry of a queue that fails (R364). -/
structure FailedRead where
  queue : BitVec 4
  error : ReadError
deriving DecidableEq, Repr

/-- What a read of host memory, or of another medium, brings: its bytes, or an error. -/
inductive HostRead
  | ok (b : Bytes)
  /-- No read was made, or another medium than host memory failed. -/
  | busError
  /-- A read of host memory failed on the link (R364, R402). -/
  | failed (e : ReadError)
  /-- A parity error: for the record of a vault key in DRAM its channel, its byte lane and whether the second read fails
  too (R432, R580); for an inline key, of its BODY (R432); for input bytes, of the staging memory (R582). -/
  | parity (ch : Bool) (lane : BitVec 4) (twice : Bool)
deriving DecidableEq, Repr

/-- A parity error that the HIU meets while it takes a descriptor (R582). -/
inductive TakeFault
  | none
  | descParity
  | attrParity
deriving DecidableEq, Repr

/-- The level registers of the tamper monitor (R577). -/
inductive LvlReg
  | rail | env | inputs
deriving DecidableEq, Repr

/-- What the initialisation of a card finds (R611 to R614, R619). -/
structure CardInit where
  /-- An SDHC or SDXC memory card. -/
  supported : Bool
  sdxc : Bool
  capGib : BitVec 16
  /-- Bit m: the card supports mode m (R611). -/
  modes : BitVec 8
  /-- The card reports 1.8 V support, and the voltage switch succeeds. -/
  v18 : Bool
  switchOk : Bool
  /-- Bit m: tuning in mode m finds a window, with its tap and width. -/
  tuneOk : BitVec 8
  tap : BitVec 7
  width : BitVec 7
  /-- The service partition's bytes, or none without one. -/
  partition : Option Bytes
deriving DecidableEq, Repr

/-- The card's answer to CMD13 after a write (R617). -/
inductive Cmd13
  | confirmed | errorBits | noResponse
deriving DecidableEq, Repr

/-- The waits of R616. -/
inductive SdWait
  | response | init | readData | busy
deriving DecidableEq, Repr

/-- The bus a management transaction uses; on SMBus, whether the PEC of its write passes (R630). -/
inductive MgtBus
  | i3c
  | smbus (pecOk : Bool)
deriving DecidableEq, Repr

/-- Who accesses a register: the Manager and the Supervisor PF BAR0, a Tenant the VF BAR0 of its instance (R45). -/
inductive Party
  | manager
  | supervisor
  | tenant (inst : BitVec 8)
deriving DecidableEq, Repr

/-- What the HIU detects on the link: an error of a class, or a malformed or poisoned TLP (R402). -/
inductive PcieError
  | corrected
  | uncorrected
  | fatal
  | malformed
  | poisoned
deriving DecidableEq, Repr

/-- The commands: one constructor for each row of the table of operations and events. -/
inductive Instr
  /-- R118. ADD or ADDI writes the 64-bit wrapping sum of s[sa] and s[sb] or imm32 to sd. -/
  | add (id : EngId) (f : SForm)
  /-- R118. SUB writes s[sa] minus s[sb], modulo 2^64, to sd. -/
  | sub (id : EngId) (f : SR)
  /-- R118. AND or ANDI writes the bitwise AND of its operands to sd. -/
  | and (id : EngId) (f : SForm)
  /-- R118. OR or ORI writes the bitwise OR of its operands to sd. -/
  | or (id : EngId) (f : SForm)
  /-- R118. XOR or XORI writes the bitwise XOR of its operands to sd. -/
  | xor (id : EngId) (f : SForm)
  /-- R118. SLL or SLLI shifts s[sa] left by b[5:0] into sd. -/
  | sll (id : EngId) (f : SForm)
  /-- R118. SRL or SRLI shifts s[sa] right by b[5:0] with zero fill into sd. -/
  | srl (id : EngId) (f : SForm)
  /-- R118. SRA or SRAI shifts s[sa] right by b[5:0] with sign fill into sd. -/
  | sra (id : EngId) (f : SForm)
  /-- R118. MUL writes the low 64 bits of s[sa] times s[sb] to sd. -/
  | mul (id : EngId) (f : SR)
  /-- R118. MULHU writes the high 64 bits of the unsigned product to sd. -/
  | mulhu (id : EngId) (f : SR)
  /-- R118. SLTU writes 1 to sd when s[sa] is below s[sb] unsigned, else 0. -/
  | sltu (id : EngId) (f : SR)
  /-- R118. SLT writes 1 to sd when s[sa] is below s[sb] signed, else 0. -/
  | slt (id : EngId) (f : SR)
  /-- R118. MOVI writes the sign-extended imm32 to sd. -/
  | movi (id : EngId) (f : SI)
  /-- R118. MOVHI replaces the upper 32 bits of s[sa] with imm32 into sd. -/
  | movhi (id : EngId) (f : SI)
  /-- R119. LDB loads one byte from s[sa] + imm32, zero-extended, into sd. -/
  | ldb (id : EngId) (f : SI)
  /-- R119. LDH loads two bytes, zero-extended, into sd. -/
  | ldh (id : EngId) (f : SI)
  /-- R119. LDW loads four bytes, zero-extended, into sd. -/
  | ldw (id : EngId) (f : SI)
  /-- R119. LDD loads eight bytes into sd. -/
  | ldd (id : EngId) (f : SI)
  /-- R119. STB stores the low byte of s[sb] at s[sa] + imm32. -/
  | stb (id : EngId) (f : SI)
  /-- R119. STH stores the low two bytes of s[sb]. -/
  | sth (id : EngId) (f : SI)
  /-- R119. STW stores the low four bytes of s[sb]. -/
  | stw (id : EngId) (f : SI)
  /-- R119. STD stores all eight bytes of s[sb]. -/
  | std (id : EngId) (f : SI)
  /-- R120. MFC reads an engine control register into sd. -/
  | mfc (id : EngId) (f : SI)
  /-- R120. MTC writes s[sa] to an engine control register such as VL. -/
  | mtc (id : EngId) (f : SI)
  /-- R121. NOPN issues nothing for N engine cycles. -/
  | nopn (id : EngId) (f : CF)
  /-- R125. WAITB places the next word at ec 0 of peal beat N, or raises TIMING_HAZARD. -/
  | waitb (id : EngId) (f : CF)
  /-- R121. JMP continues execution at IMEM word T. -/
  | jmp (id : EngId) (f : CF)
  /-- R124. CALL pushes PC + 1 on the return stack and continues at word T. -/
  | callSub (id : EngId) (f : CF)
  /-- R124. RET pops the return stack and continues at the popped word. -/
  | ret (id : EngId) (f : CF)
  /-- R122. LOOP pushes a loop-stack entry that repeats words PC + 1 to T N times. -/
  | loop (id : EngId) (f : CF)
  /-- R126. END ends the peal's code; the engine idles until its scrub beat. -/
  | endPeal (id : EngId) (f : CF)
  /-- R127. PAND writes the AND of two predicates. -/
  | pand (id : EngId) (f : VP)
  /-- R127. POR writes the OR of two predicates. -/
  | por (id : EngId) (f : VP)
  /-- R127. PXOR writes the XOR of two predicates. -/
  | pxor (id : EngId) (f : VP)
  /-- R127. PANDN writes p[pa] AND NOT p[pb]. -/
  | pandn (id : EngId) (f : VP)
  /-- R127. PNOT writes the complement of a predicate. -/
  | pnot (id : EngId) (f : VP)
  /-- R127. PSETN sets the low min(s[sa], 512) bits of a predicate and clears the rest. -/
  | psetn (id : EngId) (f : VP)
  /-- R127. PCNT writes the number of set bits of a predicate to sd. -/
  | pcnt (id : EngId) (f : VP)
  /-- R128. VCMPEQ sets predicate bits where active elements are equal. -/
  | vcmpeq (id : EngId) (f : VV)
  /-- R128. VCMPLTU sets predicate bits where va is below vb unsigned. -/
  | vcmpltu (id : EngId) (f : VV)
  /-- R128. VCMPLTS sets predicate bits where va is below vb signed. -/
  | vcmplts (id : EngId) (f : VV)
  /-- R129. VADD adds active elements modulo 2^w. -/
  | vadd (id : EngId) (f : VV)
  /-- R129. VSUB subtracts active elements modulo 2^w. -/
  | vsub (id : EngId) (f : VV)
  /-- R129. VMULLO writes the low w bits of element products. -/
  | vmullo (id : EngId) (f : VV)
  /-- R129. VMULHU writes the high w bits of unsigned element products. -/
  | vmulhu (id : EngId) (f : VV)
  /-- R129. VMULHS writes the high w bits of signed element products. -/
  | vmulhs (id : EngId) (f : VV)
  /-- R129. VAND writes the element-wise AND. -/
  | vand (id : EngId) (f : VV)
  /-- R129. VOR writes the element-wise OR. -/
  | vor (id : EngId) (f : VV)
  /-- R129. VXOR writes the element-wise XOR. -/
  | vxor (id : EngId) (f : VV)
  /-- R129. VANDN writes va AND NOT vb element-wise. -/
  | vandn (id : EngId) (f : VV)
  /-- R129. VSLLI shifts elements left by imm16. -/
  | vslli (id : EngId) (f : VV)
  /-- R129. VSRLI shifts elements right by imm16 with zero fill. -/
  | vsrli (id : EngId) (f : VV)
  /-- R129. VSRAI shifts elements right by imm16 with sign fill. -/
  | vsrai (id : EngId) (f : VV)
  /-- R129. VSLLV shifts each element left by the matching element of vb. -/
  | vsllv (id : EngId) (f : VV)
  /-- R129. VSRLV shifts each element right by the matching element of vb with zero fill. -/
  | vsrlv (id : EngId) (f : VV)
  /-- R129. VBCAST writes the low w bits of s[ss] to every active element. -/
  | vbcast (id : EngId) (f : VV)
  /-- R129. VMOV copies active elements of va to vd. -/
  | vmov (id : EngId) (f : VV)
  /-- R129. VIOTA writes each active element's index to it. -/
  | viota (id : EngId) (f : VV)
  /-- R129. VEXT writes element imm16 mod cnt of va to s[ss]. -/
  | vext (id : EngId) (f : VV)
  /-- R129. VPERM writes va[vb[i] mod cnt] to each active element. -/
  | vperm (id : EngId) (f : VV)
  /-- R132. VMODSET loads a programmable modulus slot from a DMEM descriptor. -/
  | vmodset (id : EngId) (f : VV)
  /-- R134. VMADD writes the sum of elements modulo q. -/
  | vmadd (id : EngId) (f : VV)
  /-- R134. VMSUB writes the difference of elements modulo q. -/
  | vmsub (id : EngId) (f : VV)
  /-- R134. VMNEG writes the negation of elements modulo q. -/
  | vmneg (id : EngId) (f : VV)
  /-- R134. VMMULM writes the Montgomery product of elements modulo q. -/
  | vmmulm (id : EngId) (f : VV)
  /-- R134. VMMULB writes the Barrett product of elements modulo q. -/
  | vmmulb (id : EngId) (f : VV)
  /-- R134. VMMULMS writes the Montgomery product of elements with scalar s[ss]. -/
  | vmmulms (id : EngId) (f : VV)
  /-- R134. VMRED reduces elements modulo q. -/
  | vmred (id : EngId) (f : VV)
  /-- R134. VMCENT writes the centred representative of elements modulo q. -/
  | vmcent (id : EngId) (f : VV)
  /-- R134. VMLIFT reduces signed elements into [0, q). -/
  | vmlift (id : EngId) (f : VV)
  /-- R135. VBFCT performs the Cooley-Tukey butterflies of one NTT layer. -/
  | vbfct (id : EngId) (f : VV)
  /-- R135. VBFGS performs the Gentleman-Sande butterflies of one inverse-NTT layer. -/
  | vbfgs (id : EngId) (f : VV)
  /-- R136. VBFCTX performs Cooley-Tukey butterflies across two registers, writing both. -/
  | vbfctx (id : EngId) (f : VV)
  /-- R136. VBFGSX performs Gentleman-Sande butterflies across two registers, writing both. -/
  | vbfgsx (id : EngId) (f : VV)
  /-- R137. VBMUL multiplies degree-one polynomials modulo X^2 - gamma. -/
  | vbmul (id : EngId) (f : VV)
  /-- R138. VGFSET loads a binary-field slot from a DMEM descriptor. -/
  | vgfset (id : EngId) (f : VV)
  /-- R139. VGFMUL multiplies elements in GF(2^m). -/
  | vgfmul (id : EngId) (f : VV)
  /-- R139. VGFSQR squares elements in GF(2^m). -/
  | vgfsqr (id : EngId) (f : VV)
  /-- R139. VGFINV inverts elements in GF(2^m) in constant time. -/
  | vgfinv (id : EngId) (f : VV)
  /-- R139. VCLMULLO writes the low 64 bits of carry-less products. -/
  | vclmullo (id : EngId) (f : VV)
  /-- R139. VCLMULHI writes the high 64 bits of carry-less products. -/
  | vclmulhi (id : EngId) (f : VV)
  /-- R140. VCOMPR compresses elements modulo q to D bits. -/
  | vcompr (id : EngId) (f : VV)
  /-- R140. VDECOMPR decompresses D-bit elements to values modulo q. -/
  | vdecompr (id : EngId) (f : VV)
  /-- R141. VPACK packs D bits of each element into a bit string. -/
  | vpack (id : EngId) (f : VV)
  /-- R141. VUNPACK unpacks a bit string into D-bit elements. -/
  | vunpack (id : EngId) (f : VV)
  /-- R142. VP2R splits elements into high and low parts by Power2Round. -/
  | vp2r (id : EngId) (f : VV)
  /-- R142. VSPLIT decomposes elements into high and low parts for ML-DSA. -/
  | vsplit (id : EngId) (f : VV)
  /-- R144. VLD loads a 512-byte block, or 1,024 in pair form, into active elements. -/
  | vld (id : EngId) (f : VM)
  /-- R144. VST stores the bytes of active elements to a block. -/
  | vst (id : EngId) (f : VM)
  /-- R145. VLDFF loads elements until the first faulting one and trims VL and pd. -/
  | vldff (id : EngId) (f : VM)
  /-- R146. VGTH gathers elements from DMEM at indexed addresses. -/
  | vgth (id : EngId) (f : VM)
  /-- R146. VSCT scatters elements to DMEM at indexed addresses. -/
  | vsct (id : EngId) (f : VM)
  /-- R147. VLDS loads structures of 2 to 4 fields into successive registers. -/
  | vlds (id : EngId) (f : VM)
  /-- R147. VSTS stores structures of 2 to 4 fields from successive registers. -/
  | vsts (id : EngId) (f : VM)
  /-- R157. SMADD adds arithmetic share groups share by share. -/
  | smadd (id : EngId) (f : VV)
  /-- R157. SMSUB subtracts arithmetic share groups share by share. -/
  | smsub (id : EngId) (f : VV)
  /-- R157. SMMULC multiplies an arithmetic share group by a public operand in Montgomery form. -/
  | smmulc (id : EngId) (f : VV)
  /-- R157. SADDP adds a public operand to share 0 of an arithmetic group. -/
  | saddp (id : EngId) (f : VV)
  /-- R157. SXOR XORs Boolean share groups share by share. -/
  | sxor (id : EngId) (f : VV)
  /-- R157. SXORP XORs a public operand into share 0 of a Boolean group. -/
  | sxorp (id : EngId) (f : VV)
  /-- R158. SAND computes fresh shares of the AND of two Boolean groups with MRG randomness. -/
  | sand (id : EngId) (f : VV)
  /-- R157. SREF refreshes a share group with MRG randomness. -/
  | sref (id : EngId) (f : VV)
  /-- R159. SB2A converts Boolean shares into arithmetic shares of the same value. -/
  | sb2a (id : EngId) (f : VV)
  /-- R159. SA2B converts arithmetic shares into Boolean shares of the same value. -/
  | sa2b (id : EngId) (f : VV)
  /-- R157. SSPLIT splits a public register into fresh shares. -/
  | ssplit (id : EngId) (f : VV)
  /-- R160. SOPEN refreshes a share group and writes its combined value to a public register. -/
  | sopen (id : EngId) (f : VV)
  /-- R163. SCSEL selects fresh shares of one of two Boolean groups by a masked choice bit. -/
  | scsel (id : EngId) (f : VV)
  /-- R161. MRD writes MRG output directly to active elements of a register. -/
  | mrd (id : EngId) (f : VV)
  /-- R162. VCSEL selects va or vb per element by vc in constant time. -/
  | vcsel (id : EngId) (f : VV)
  /-- R165. KINIT zeroes the Keccak state slots of the order. -/
  | kinit (id : EngId) (f : VV)
  /-- R166. KABS XORs RB bytes of a register group into the Keccak state. -/
  | kabs (id : EngId) (f : VV)
  /-- R74. KPERM runs one Keccak-f[1600] permutation at the order's timing. -/
  | kperm (id : EngId) (f : VV)
  /-- R166. KSQZ copies RB bytes of the Keccak state into a register group. -/
  | ksqz (id : EngId) (f : VV)
  /-- R167. KSAVE stores the Keccak state shares to DMEM. -/
  | ksave (id : EngId) (f : VV)
  /-- R167. KREST loads the Keccak state shares from DMEM. -/
  | krest (id : EngId) (f : VV)
  /-- R168. VCBD samples a centred-binomial polynomial from a bit string, masked or not. -/
  | vcbd (id : EngId) (f : VV)
  /-- R169. VSREJ parses bytes into candidates and writes the accepted ones by rejection sampling. -/
  | vsrej (id : EngId) (f : VV)
  /-- R71. KLD moves one 512-byte block of an input key, in all shares, from the key port into DMEM. -/
  | kld (id : EngId) (f : KP)
  /-- R72. KST moves one block of an output key from DMEM into the key-port buffer. -/
  | kst (id : EngId) (f : KP)
  /-- R78. At a peal's start beat the engine takes or carries its mask seed, clears slots and stacks, and begins the code. -/
  | startBeat (id : EngId)
  /-- R61. The peal's last beat clears the engine state and the call's input-key blocks. -/
  | scrubBeat (id : EngId)
  /-- R223. At the release beat the cluster reads the result word, validates output keys or frees them, and queues the completion. -/
  | releaseBeat (id : EngId)
  /-- R78. A private-wire transfer fills an engine's next-seed register and clears MRG_EXH. -/
  | seedDelivery (id : EngId)
  /-- R39. The 1 µs wake window clears and a held wake request proceeds. -/
  | wakeWindowClear (cluster : BitVec 4)
  /-- R84. The 2,000-ec wake count ends and the vector domain goes ON, or fails with DE_VWAKE_FAIL. -/
  | wakeCountDone (cluster : BitVec 4) (powerGood : Bool)
  /-- R83. IDLE_HOLD beats pass without vector work and the domain starts gating. -/
  | vectorIdle (cluster : BitVec 4)
  /-- R83. Five gating beats elapse and the vector domain switches OFF. -/
  | gatingDone (cluster : BitVec 4)
  /-- R94. A write setting DE_DBG_CTRL.EN enables readback on the selected engine, at once or at its release beat. -/
  | debugEnSet (cluster : BitVec 4) (sel : BitVec 5) (haltExc : Bool)
  /-- R98. Clearing EN scrubs the engine and returns it to IDLE. -/
  | debugEnClear (cluster : BitVec 4)
  /-- R96. HALT stops the selected engine at its next instruction boundary, aborting its call. -/
  | debugHalt (cluster : BitVec 4)
  /-- R97. STEP executes one instruction of the halted engine and halts again. -/
  | debugStep (cluster : BitVec 4)
  /-- R97. RESUME continues the halted engine, detached from the schedule. -/
  | debugResume (cluster : BitVec 4)
  /-- R100. An access to DE_DBG_DATA reads or writes the debug space at ADDR and adds 4 to ADDR. -/
  | debugDataAccess (cluster : BitVec 4) (write : Bool) (value : BitVec 32)
  /-- R104. A write of RST resets an idle out-of-service cluster, reloads its scores and runs its self-test. -/
  | clusterRst (cluster : BitVec 4)
  /-- R104. A write of DE_CL_CTRL.OOS closes or reopens the cluster to admission. -/
  | clusterOos (cluster : BitVec 4) (on : Bool)
  /-- R83. A write of FORCE_ON keeps the cluster's vector domain on and raises a wake request. -/
  | forceOn (cluster : BitVec 4) (on : Bool)
  /-- R200. SCH_LOAD_CMD.GO starts fetching a score image from host memory. -/
  | schLoadGo (cmd : BitVec 32) (image : HostRead)
  /-- R201. The fetched image's signature and tables are checked, and it enters the store or is refused. -/
  | scoreVerifyDone
  /-- R205. SCH_LOAD_CMD.DROP removes a store entry that no engine holds. -/
  | schLoadDrop (cmd : BitVec 32)
  /-- R203. SCH_PLACE_CMD.GO starts placing a stored score into selected engines of a cluster. -/
  | schPlaceGo (cmd : BitVec 32)
  /-- R203. The score load into the selected engines completes after their planned calls finish. -/
  | engineLoadDone (cluster : BitVec 4)
  /-- R207. The SCH admits a pending call by class, floor and virtual time and places it on an engine. -/
  | admitCall
  /-- R207. A 4,096-beat period ends and the class sums restart. -/
  | floorPeriodEnd
  /-- R215. The call's inputs, keys and KEY_RAND blocks are staged, or staging fails under R217. -/
  | stagingDone (call : BitVec 32) (input : HostRead) (records : List HostRead)
  /-- R216. Staging is not complete 2 beats before the start and the start moves later. -/
  | startSlip (call : BitVec 32)
  /-- R219. A stream window is not complete at WIN_END and the SCH ends the peal. -/
  | streamWindowLate (id : EngId) (entry : BitVec 8)
  /-- R224. A staging mover finishes pushing the call's output to host memory. -/
  | outputPushDone (call : BitVec 32)
  /-- R226. The completion writer moves one FIFO entry into the HIU holding. -/
  | completionFifoDrain (cluster : BitVec 4)
  /-- R225. The stagger delay and output push have passed and the completion becomes ready. -/
  | staggerEnd (call : BitVec 32)
  /-- R255. ML-KEM key generation outputs ek and makes dk as a vault key. -/
  | mlKemKeygen (id : EngId)
  /-- R255. ML-KEM encapsulation outputs ct and makes K. -/
  | mlKemEncaps (id : EngId)
  /-- R258. ML-KEM decapsulation makes K, or the implicit-rejection key. -/
  | mlKemDecaps (id : EngId)
  /-- R259. ML-DSA key generation outputs pk and makes sk. -/
  | mlDsaKeygen (id : EngId)
  /-- R260. ML-DSA signing runs an attempt chain and outputs sigma. -/
  | mlDsaSign (id : EngId)
  /-- R259. ML-DSA verification reports OK or VERIFY_FAILED. -/
  | mlDsaVerify (id : EngId)
  /-- R263. FN-DSA key generation runs an attempt chain and makes sk. -/
  | fnDsaKeygen (id : EngId)
  /-- R262. FN-DSA signing runs unmasked and isolated as an attempt chain. -/
  | fnDsaSign (id : EngId)
  /-- R261. FN-DSA verification reports OK or VERIFY_FAILED. -/
  | fnDsaVerify (id : EngId)
  /-- R265. SLH-DSA key generation outputs pk and makes sk. -/
  | slhDsaKeygen (id : EngId)
  /-- R267. SLH-DSA signing outputs part 0 and a continuation where needed. -/
  | slhDsaSign (id : EngId)
  /-- R267. A sign-continuation call outputs the next signature part. -/
  | slhDsaSignContinuation (id : EngId)
  /-- R268. SLH-DSA verification checks part 0 and writes a continuation or the verdict. -/
  | slhDsaVerify (id : EngId)
  /-- R268. A verify-continuation call checks the next part and gives the verdict on the last. -/
  | slhDsaVerifyContinuation (id : EngId)
  /-- R270. TREE_BEGIN starts a stateful tree job and binds a reservation counter. -/
  | treeBegin (id : EngId)
  /-- R271. TREE_STEP computes the next 512 leaves and writes a successor job. -/
  | treeStep (id : EngId)
  /-- R271. TREE_END makes the tree entry and outputs pk or the parent's signature. -/
  | treeEnd (id : EngId)
  /-- R273. LMS signing assigns an index and outputs the chain and bottom signature. -/
  | lmsSign (id : EngId)
  /-- R273. LMS/HSS verification reports OK or VERIFY_FAILED. -/
  | lmsHssVerify (id : EngId)
  /-- R273. XMSS signing assigns an index and outputs the signature. -/
  | xmssSign (id : EngId)
  /-- R273. XMSS/XMSS^MT verification reports OK or VERIFY_FAILED. -/
  | xmssVerify (id : EngId)
  /-- R274. HQC key generation outputs pk and makes sk. -/
  | hqcKeygen (id : EngId)
  /-- R274. HQC encapsulation outputs ct and makes K. -/
  | hqcEncaps (id : EngId)
  /-- R274. HQC decapsulation makes K with implicit rejection. -/
  | hqcDecaps (id : EngId)
  /-- R274. Classic McEliece decapsulation makes K with implicit rejection. -/
  | mceDecaps (id : EngId)
  /-- R275. MCE_ENC_BEGIN draws e and writes an encapsulation job. -/
  | mceEncBegin (id : EngId)
  /-- R275. MCE_ENC_SEG absorbs public-key rows and writes the successor job. -/
  | mceEncSeg (id : EngId)
  /-- R275. MCE_ENC_END outputs ct and makes K. -/
  | mceEncEnd (id : EngId)
  /-- R276. MCE_KG_BEGIN writes the Goppa record and job and names the first step. -/
  | mceKgBegin (id : EngId)
  /-- R276. MCE_KG_STEP runs one INIT, PIVOT or ELIM step and names the next. -/
  | mceKgStep (id : EngId)
  /-- R276. MCE_KG_END writes the private key. -/
  | mceKgEnd (id : EngId)
  /-- R276. MCE_PK_OUT outputs one public-key panel. -/
  | mcePkOut (id : EngId)
  /-- R277. X25519 or X448 key generation outputs the public share and makes the private key. -/
  | xKeygen (id : EngId)
  /-- R277. X25519 or X448 exchange makes the shared secret or rejects a low-order share. -/
  | xExchange (id : EngId)
  /-- R277. Ed25519 or Ed448 key generation outputs pk and makes sk. -/
  | edKeygen (id : EngId)
  /-- R277. Ed25519 or Ed448 signing outputs sigma. -/
  | edSign (id : EngId)
  /-- R277. Ed25519 or Ed448 verification reports OK or VERIFY_FAILED. -/
  | edVerify (id : EngId)
  /-- R278. The server hybrid handshake decapsulates, exchanges and derives the session key. -/
  | hybridServer (id : EngId)
  /-- R278. The client hybrid handshake encapsulates, exchanges, outputs ct and share, and derives the session key. -/
  | hybridClient (id : EngId)
  /-- R279. HKDF-SHA-256 derives output key 0 from KEY0. -/
  | hkdfSha256 (id : EngId)
  /-- R279. HKDF-SHA-384 derives output key 0 from KEY0. -/
  | hkdfSha384 (id : EngId)
  /-- R279. KMAC128 derives output key 0 from KEY0. -/
  | kmac128 (id : EngId)
  /-- R279. KMAC256 derives output key 0 from KEY0. -/
  | kmac256 (id : EngId)
  /-- R202. A descriptor with a USER opcode runs the Owner-signed score serving it. -/
  | userScoreCall (id : EngId) (out : Bytes) (status accept : BitVec 8) (key0 key1 : Option Bytes)
  /-- R305. RSA key generation writes a private record and outputs n. -/
  | rsaKeygen (unit : BitVec 5)
  /-- R302. RSA signing with PSS or PKCS #1 v1.5 outputs sigma. -/
  | rsaSign (unit : BitVec 5)
  /-- R308. RSA verification reports OK or VERIFY_FAILED. -/
  | rsaVerify (unit : BitVec 5)
  /-- R309. RSA OAEP decryption outputs the message. -/
  | rsaDecrypt (unit : BitVec 5)
  /-- R302. RSA OAEP encryption outputs c. -/
  | rsaEncrypt (unit : BitVec 5)
  /-- R301. EC key generation outputs Q and makes d. -/
  | ecKeygen (unit : BitVec 5)
  /-- R311. ECDSA signing outputs r and s. -/
  | ecdsaSign (unit : BitVec 5)
  /-- R308. ECDSA verification reports OK, VERIFY_FAILED or INPUT_REJECTED. -/
  | ecdsaVerify (unit : BitVec 5)
  /-- R309. ECDH makes the shared X coordinate as output key 0. -/
  | ecdh (unit : BitVec 5)
  /-- R304. EC_CURVE_LOAD checks curve parameters and makes a curve record. -/
  | ecCurveLoad (unit : BitVec 5)
  /-- R318. A raw command list runs after its prologue check, or is refused. -/
  | mauRaw (unit : BitVec 5)
  /-- R317. Raw LOAD puts the next data bytes into a slot as a big-endian integer. -/
  | rawLoad (unit : BitVec 5)
  /-- R317. Raw STORE writes the low bytes of a slot to the output. -/
  | rawStore (unit : BitVec 5)
  /-- R317. Raw MODSET makes a slot the modulus with precomputed constants. -/
  | rawModset (unit : BitVec 5)
  /-- R317. Raw MADD writes (A + B) mod M. -/
  | rawMadd (unit : BitVec 5)
  /-- R317. Raw MSUB writes (A - B) mod M. -/
  | rawMsub (unit : BitVec 5)
  /-- R317. Raw MMUL writes the Montgomery product mod M. -/
  | rawMmul (unit : BitVec 5)
  /-- R317. Raw MSQR writes the Montgomery square mod M. -/
  | rawMsqr (unit : BitVec 5)
  /-- R317. Raw TOMONT converts a slot into Montgomery form. -/
  | rawTomont (unit : BitVec 5)
  /-- R317. Raw FROMMONT converts a slot out of Montgomery form. -/
  | rawFrommont (unit : BitVec 5)
  /-- R317. Raw MEXP writes A^B mod M over IMM exponent bits. -/
  | rawMexp (unit : BitVec 5)
  /-- R317. Raw MINV writes the modular inverse, or 0. -/
  | rawMinv (unit : BitVec 5)
  /-- R317. Raw ECSET sets the curve coefficients over M. -/
  | rawEcset (unit : BitVec 5)
  /-- R317. Raw ECCHK tests whether a point lies on the curve. -/
  | rawEcchk (unit : BitVec 5)
  /-- R317. Raw ECADD adds two affine points. -/
  | rawEcadd (unit : BitVec 5)
  /-- R317. Raw ECMUL multiplies a point by public scalar bits. -/
  | rawEcmul (unit : BitVec 5)
  /-- R296. The SCH places a MAU call on an eligible unit's free half and stages it. -/
  | mauPlace (call : BitVec 32) (input : HostRead) (records : List HostRead)
  /-- R297. A unit starts a staged call once the previous call has ended. -/
  | mauCallStart (unit : BitVec 5) (fault : BitVec 3)
  /-- R308. A MAU call ends at V or T_full, runs its invariant and generation checks, and pushes output. -/
  | mauCallEnd (unit : BitVec 5) (fault : BitVec 3)
  /-- R291. The 256-mc clear of a key-store half, scratch bank or operand half ends. -/
  | mauClearDone (unit : BitVec 5) (half : Bool)
  /-- R320. A write of DIRECT = 1 puts an idle unit into direct mode and clears it. -/
  | mauDirectSet (unit : BitVec 5)
  /-- R323. Clearing DIRECT clears operand memory and returns the unit to placement. -/
  | mauDirectClear (unit : BitVec 5)
  /-- R321. A write of MAU_RCMD_HI issues a raw command in direct mode. -/
  | mauRcmdHiWrite (unit : BitVec 5) (value : BitVec 32)
  /-- R321. A direct command ends, sets DONE and RESULT and may raise its vector. -/
  | mauDirectDone (unit : BitVec 5)
  /-- R321. An access to MAU_OPM_DATA reads or writes H0 at ADDR and adds 4 to ADDR. -/
  | mauOpmDataAccess (unit : BitVec 5) (write : Option (BitVec 32))
  /-- R324. A write of MAU_CTRL.ABORT requests a software abort of the current call. -/
  | mauAbort (unit : BitVec 5)
  /-- R325. The abort takes effect at a safe point or boundary and ends the call ABORTED. -/
  | mauAbortTake (unit : BitVec 5)
  /-- R337. A write of MAU_CTRL.OOS stops new placements on the unit. -/
  | mauOos (unit : BitVec 5) (on : Bool)
  /-- R337. The fifth write of MAU_PATCH_DATA writes a microword and advances ADDR, broadcast if BCAST. -/
  | mauPatchDataWrite (unit : BitVec 5) (value : BitVec 32)
  /-- R334. Setting LOCK freezes the patch RAM and match registers and copies VER. -/
  | mauPatchLock (unit : BitVec 5) (value : BitVec 32)
  /-- R353. A write to QP_SQ_DB moves SQ_TAIL and starts fetching, or halts the queue on an overrun. -/
  | sqDoorbell (inst : BitVec 8) (queue : BitVec 4) (value : BitVec 16)
  /-- R355. A write to QP_CQ_DB moves CQ_HEAD, or halts the queue. -/
  | cqDoorbell (inst : BitVec 8) (queue : BitVec 4) (value : BitVec 16)
  /-- R359. A fetched entry with a matching mark is taken and run through the admission checks. -/
  | descriptorTake (inst : BitVec 8) (queue : BitVec 4) (entry : BitVec 512) (fault : TakeFault)
  /-- R364. A covered entry read fails and halts the queue with HOST_ACCESS_ERROR. -/
  | descriptorFetchFail (inst : BitVec 8) (read : FailedRead)
  /-- R366. The HIU writes a ready completion entry to the ring when space allows and raises MSI-X. -/
  | completionWrite (inst : BitVec 8) (queue : BitVec 4) (parity : Bool)
  /-- R350. Setting QP_CTRL.EN checks the configuration and starts the queue or sets CFG_ERR. -/
  | qpEnSet (inst : BitVec 8) (queue : BitVec 4) (value : BitVec 32)
  /-- R374. Clearing QP_CTRL.EN moves the queue to DRAINING. -/
  | qpEnClear (inst : BitVec 8) (queue : BitVec 4) (value : BitVec 32)
  /-- R374. ACTIVE reaches 0 in DRAINING; waiting completions are discarded and the queue is DISABLED. -/
  | queueDrainEnd (inst : BitVec 8) (queue : BitVec 4)
  /-- R346. A write of ACTIVE_MAX takes effect unless the sum would exceed 8,192. -/
  | activeMaxWrite (inst : BitVec 8) (value : BitVec 32)
  /-- R348. A 2^20-beat budget period ends and call budgets restart. -/
  | budgetPeriodEnd
  /-- R378. Unmasking a vector with its pending bit set sends the message. -/
  | msixUnmask (inst : BitVec 8) (vector : BitVec 6)
  /-- R380. MBX_DOORBELL.GO passes the inbound message to the Supervisor. -/
  | mbxDoorbellGo (inst : BitVec 8)
  /-- R380. The Supervisor's answer lands in MBX_OUT, sets OUT_VALID and raises the mailbox vector. -/
  | mailboxAnswer (inst : BitVec 8) (supParity : Bool)
  /-- R381. The Supervisor has not answered within 10 s and the HIU answers ABORTED. -/
  | mailboxTimeout (inst : BitVec 8)
  /-- R384. QUIESCE <- 1 makes later descriptors of the instance complete INSTANCE_QUIESCING. -/
  | quiesceSet (inst : BitVec 8)
  /-- R384. QUIESCE <- 0 returns the instance to ACTIVE. -/
  | quiesceClear (inst : BitVec 8)
  /-- R384. ACTIVE reaches 0 while QUIESCING and the instance becomes QUIESCED. -/
  | quiesceDone (inst : BitVec 8)
  /-- R384. FREEZE <- 1 freezes a quiesced instance. -/
  | freezeSet (inst : BitVec 8)
  /-- R384. FREEZE <- 0 unfreezes the instance and releases its doorbells, completions and messages. -/
  | freezeClear (inst : BitVec 8)
  /-- R385. RESET clears an instance's queues, mailbox and keys and leaves it QUIESCED. -/
  | instanceReset (inst : BitVec 8)
  /-- R386. A Function Level Reset stops fetching and host writes for the instance. -/
  | flrBegin (inst : BitVec 8)
  /-- R386. The last call of the instance has ended and its queues, mailbox and MSI-X are reset. -/
  | flrComplete (inst : BitVec 8)
  /-- R387. Clearing VF Enable acts as an FLR of every VF. -/
  | vfEnableClear
  /-- R534. A link-down or hot reset acts as an FLR of every instance. -/
  | linkDown
  /-- R669. GET_VERSIONS returns 48 bytes of state and versions. -/
  | getVersions (inst : BitVec 8)
  /-- R383. GET_IDENTITY writes the identity certificate chain to a buffer. -/
  | getIdentity (inst : BitVec 8)
  /-- R633. ATTEST writes a signed attestation report to a buffer. -/
  | attest (inst : BitVec 8)
  /-- R440. KEY_IMPORT checks an import message and makes the key entry. -/
  | keyImport (inst : BitVec 8) (message : HostRead) (record : HostRead)
  /-- R389. HAMPER_PREPARE binds a fresh nonce to a target instance. -/
  | hamperPrepare (inst : BitVec 8)
  /-- R390. HAMPER_SAVE seals a frozen instance into a hamper and leaves it SAVED. -/
  | hamperSave (inst : BitVec 8) (records : List HostRead)
  /-- R393. HAMPER_RESTORE checks a hamper and restores the instance. -/
  | hamperRestore (inst : BitVec 8) (hamper : HostRead)
  /-- R470. GET_RANDOM returns N random bytes inline. -/
  | getRandom (inst : BitVec 8)
  /-- R444. KEY_GENERATE makes a secret or wrapping key from the DRBG. -/
  | keyGenerate (call : BitVec 32)
  /-- R422. KEY_DESTROY frees an entry, orphans its descendants and may retire a tree or advance the epoch. -/
  | keyDestroy (call : BitVec 32)
  /-- R444. KEY_INFO returns 32 bytes describing an entry. -/
  | keyInfo (call : BitVec 32)
  /-- R444. KEY_RESTRICT clears attribute bits of an entry. -/
  | keyRestrict (call : BitVec 32)
  /-- R442. KEY_EXPORT wraps an exportable key under a wrapping key. -/
  | keyExport (call : BitVec 32) (records : List HostRead)
  /-- R444. KEY_PUBLIC_LOAD checks a public key and makes a public entry. -/
  | keyPublicLoad (call : BitVec 32) (input : HostRead)
  /-- R434. KEY_SAVE writes a saved record, or evicts a vault record to host memory. -/
  | keySave (call : BitVec 32) (records : List HostRead)
  /-- R436. KEY_LOAD checks a saved record and makes or refills an entry. -/
  | keyLoad (call : BitVec 32) (input : HostRead)
  /-- R419. Every 10 s the sweep draws a new seed and starts a pass, or skips it. -/
  | sweepPassStart
  /-- R419. The sweep re-masks one entry and tests its chain, reclaiming orphans. -/
  | sweepStep
  /-- R405. Every 60 s the BBRAM roots are re-masked, or the re-masking is skipped. -/
  | bbramRemask
  /-- R29. A write of KT_SUP_SEL starts a one-share read of an entry under the read-token limit. -/
  | supShareRead (share : Bool)
  /-- R427. A write of VAULT_EN enables or disables the DRAM vault. -/
  | vaultEnWrite (on : Bool)
  /-- R454. A noise source fails RCT or APT and enters FAILED, discarding the ready block. -/
  | sourceHealthFail (src : BitVec 2) (apt : Bool)
  /-- R453. A source's 1,024 startup samples pass and it enters PASS. -/
  | startupTestPass (src : BitVec 2) (apt : BitVec 11)
  /-- R454. One second after failing, a source retries its startup test or is DISABLED. -/
  | sourceRetry (src : BitVec 2)
  /-- R454. ENT_CTRL.RESTART returns a source to STARTUP with FAILS 0. -/
  | sourceRestart (mask : BitVec 4)
  /-- R456. The compressor forms a 512-bit entropy block when its credit allows. -/
  | entropyBlockFormed (bits : BitVec 512)
  /-- R460. A DRBG instance is instantiated from an entropy block. -/
  | drbgInstantiate (drbg : BitVec 4)
  /-- R464. A reseeding or stopped instance reseeds from an entropy block. -/
  | drbgReseed (drbg : BitVec 4)
  /-- R461. A DRBG instance serves a 256- or 512-bit request to one consumer. -/
  | drbgRequest
  /-- R464. A parity error in an instance discards its output and returns it to UNINST. -/
  | drbgParity (drbg : BitVec 4)
  /-- R471. ENT leaves reset, starts its sources and enters FULL, DEGRADED or HALTED. -/
  | entStart (katOk : Bool)
  /-- R469. A read of ENT_SW_DATA or ENT_SUP_DATA returns the next random word or underruns. -/
  | swDataRead (sup : Bool)
  /-- R469. A software-port buffer is refilled with 512 bits. -/
  | swBufferRefill (sup : Bool)
  /-- R468. The Sealing Unit refills its IV reserve by 5 IVs. -/
  | ivReserveRefill
  /-- R489. Mailbox DIGEST_OPEN opens a digest context. -/
  | digestOpen (inst : BitVec 8)
  /-- R489. Mailbox DIGEST_UPDATE queues an absorb job for a host buffer. -/
  | digestUpdate (inst : BitVec 8)
  /-- R489. Mailbox DIGEST_FINAL queues a finish job with optional compare. -/
  | digestFinal (inst : BitVec 8) (last : HostRead)
  /-- R489. Mailbox DIGEST_CLOSE frees a context. -/
  | digestClose (inst : BitVec 8)
  /-- R478. DGE_CX_CMD OPEN initialises a context. -/
  | dgeCxOpen (inst : BitVec 8) (ctx : BitVec 3) (alg : BitVec 4)
  /-- R479. DGE_CX_CMD UPDATE queues an absorb job. -/
  | dgeCxUpdate (inst : BitVec 8) (ctx : BitVec 3)
  /-- R481. DGE_CX_CMD FINISH queues a finish job. -/
  | dgeCxFinish (inst : BitVec 8) (ctx : BitVec 3)
  /-- R478. DGE_CX_CMD CLOSE frees a context. -/
  | dgeCxClose (inst : BitVec 8) (ctx : BitVec 3)
  /-- R478. A digest job ends, saving the context or producing output and compare result. -/
  | digestJobEnd (unit : BitVec 4) (data : HostRead) (fault : BitVec 2)
  /-- R486. A unit switches to the head of the wait list at a block boundary and saves the outgoing context. -/
  | digestSwitch (unit : BitVec 4) (data : Bytes)
  /-- R485. A write of DGE_CTRL.SAVE_EN or the save base enables context saving unless refused. -/
  | saveEnWrite (reg : BitVec 2) (value : BitVec 32)
  /-- R500. GO checks a channel's configuration and starts the transfer. -/
  | dmaGo (chan : BitVec 4) (ctrl : BitVec 32)
  /-- R500. PAUSE <- 1 stops new reads of a running channel. -/
  | dmaPauseSet (chan : BitVec 4)
  /-- R501. PAUSE <- 0 resumes the channel from PROG. -/
  | dmaPauseClear (chan : BitVec 4)
  /-- R500. ABORT returns the channel to IDLE, discarding unwritten data. -/
  | dmaAbort (chan : BitVec 4)
  /-- R500. The data already read is written and the channel becomes PAUSED. -/
  | dmaPaused (chan : BitVec 4) (prog : BitVec 32) (data : Bytes)
  /-- R499. The last write is done and the channel becomes DONE. -/
  | dmaDone (chan : BitVec 4) (data : Bytes)
  /-- R502. A read or write error halts the channel and latches the address. -/
  | dmaErrorHalt (chan : BitVec 4) (source : BitVec 4) (write : Bool) (prog : BitVec 32) (addr : BitVec 64) (data : Bytes) (memCh : Bool) (lane : BitVec 4)
  /-- R514. LC_CHALLENGE draws and holds a nonce. -/
  | lcChallenge (inst : BitVec 8)
  /-- R515. LC_TRANSITION checks a package and starts programming a life-cycle transition. -/
  | lcTransition (inst : BitVec 8) (package : HostRead)
  /-- R512. A JTAG command takes a RAW device to TEST. -/
  | rawTestTransition (serial : BitVec 64)
  /-- R516. The root and fuse step ends and copy A begins. -/
  | lcRootStepDone
  /-- R516. A copy's bits are programmed; the recheck runs after copy A and the next copy begins or the LCC stops. -/
  | lcCopyDone
  /-- R518. The readback ends; the LCC answers OK and resets the device. -/
  | lcReadbackDone
  /-- R525. DEBUG_UNLOCK checks a debug response and asserts the enables it names. -/
  | debugUnlock (inst : BitVec 8) (response : HostRead)
  /-- R531. The main rails reach power-good and the device resets and leaves battery operation. -/
  | powerOn
  /-- R531. PERST_N asserted resets the device and idles its outputs. -/
  | perstNAssert
  /-- R542. PERST_N released samples the straps and starts bring-up. -/
  | perstNRelease (strap : BitVec 2)
  /-- R549. SUP_CTRL.DEV_RESET with KEY 0xD1E7 resets the device. -/
  | devReset (key : BitVec 16)
  /-- R531. The Supervisor cores disagree and the device resets with CAUSE 0x06. -/
  | lockstepDisagree
  /-- R539. The 2 s bring-up watchdog expires, raising the slot's fail count and resetting. -/
  | watchdogExpiry
  /-- R542. All PLLs lock and link training begins. -/
  | pllLock
  /-- R511. Pending evidence moves, OTP loads and the life-cycle state is decoded. -/
  | otpLoad (parityError : Bool)
  /-- R542. Every SRAM is zeroed with parity written. -/
  | sramClearDone
  /-- R542. DRAM training of both channels ends, or halts bring-up. -/
  | dramTrainingDone (ok0 : Bool) (ok1 : Bool) (gib0 : BitVec 8) (gib1 : BitVec 8) (speed : BitVec 8)
  /-- R538. The boot ROM selects a firmware slot and computes its body digest. -/
  | slotSelection
  /-- R540. With no valid slot, the boot ROM reads and checks a recovery image from the card. -/
  | cardRecovery (image : HostRead)
  /-- R542. The image signature is checked and the Supervisor firmware starts. -/
  | imageSignatureCheck
  /-- R520. BBRAM is checked, a lost root renewed, and BOOT_ID drawn. -/
  | bbramCheck
  /-- R335. The MAU patch package is verified, broadcast and locked. -/
  | mauPatchLoad
  /-- R542. The Sealing Unit, digest and MAU known-answer tests run. -/
  | knownAnswerTests (sealOk : Bool) (digestOk : Bool) (mauFail : BitVec 32)
  /-- R604. The event recorder rebuilds its ring from the NOR checkpoint region. -/
  | evrRestore (norFail : Option (BitVec 32))
  /-- R543. A cluster self-test passes or fails, setting INSERVICE. -/
  | clusterSelfTest (cluster : BitVec 4) (result : BitVec 8)
  /-- R545. The device locks RWL fields, opens its regions and sets ADMIT_EN and READY. -/
  | readiness
  /-- R541. FW_COMMIT raises the OTP firmware and patch minimums to the running SVNs. -/
  | fwCommit (inst : BitVec 8)
  /-- R626. FW_WRITE checks and writes an image into the idle slot or patch region. -/
  | fwWrite (inst : BitVec 8) (image : HostRead)
  /-- R555. Design A latches a rail glitch and raises the response at its level. -/
  | railGlitch (rail : BitVec 2) (below : Bool)
  /-- R555. Design B reports a slow rail excursion and raises the response at its level. -/
  | railSlowExcursion (rail : BitVec 2) (below : Bool)
  /-- R556. The two rail detectors disagree and TMP_DISAGREE is raised. -/
  | detectorDisagree (rail : BitVec 2) (below : Bool)
  /-- R558. The filtered junction temperature passes a limit and raises TMP_TEMP_HIGH or LOW. -/
  | tempAlarm (tj : BitVec 16)
  /-- R559. SYSCLK, REFCLK or a PLL output leaves its band and TMP_CLOCK is raised. -/
  | clockFault
  /-- R559. XTAL32 has stopped for 8 ms and TMP_XTAL is raised. -/
  | xtalStop
  /-- R561. A tamper input or ZEROIZE_N becomes active after the filter and raises its alarm. -/
  | tamperInputActive (input : BitVec 3)
  /-- R563. A mesh pair returns a wrong bit through the filter and TMP_MESH is raised. -/
  | meshBreach (pair : Bool)
  /-- R567. An RWS field differs from its inverted shadow and TMP_SHADOW is raised. -/
  | shadowMismatch (region : BitVec 8) (offset : BitVec 32)
  /-- R553. Every L2-or-above source has been inactive for the hold time and admission resumes. -/
  | holdEnd
  /-- R562. A write of TMP_CTRL.REARM re-arms a stuck source that has been inactive for 1 s. -/
  | rearm (bits : BitVec 6)
  /-- R565. A write of a TMP level field takes effect within its range or is refused. -/
  | tmpLevelWrite (reg : LvlReg) (value : BitVec 32)
  /-- R566. Setting TMP_CTRL.LOCK freezes the TMP configuration until device reset. -/
  | tmpLock (value : BitVec 32)
  /-- R568. The main rails fall with VBAT present and the TMP enters battery operation. -/
  | batteryEnter
  /-- R569. Every 4 ms the TMP samples the mesh and inputs on battery and acts by level. -/
  | batteryWindow (active : BitVec 6)
  /-- R570. XTAL32 stops on battery and is treated as a mesh breach. -/
  | batteryXtalStop
  /-- R566. Loss of VBAT returns the TMP settings, STUCK bits and always-on counts to defaults. -/
  | vbatLoss
  /-- R573. The pending-evidence count is programmed into the OTP thermometer once the OTP is free. -/
  | evidenceMove
  /-- R647. Every 1 µs the governor sums demand and takes the next limiting action. -/
  | governorEvaluation (demand : BitVec 16)
  /-- R648. After 1 ms at or below 90 % the governor undoes its latest action. -/
  | governorRelease
  /-- R646. A write of MEM_PWR_CTRL.LIMIT sets the software power limit. -/
  | powerLimitWrite (limit : BitVec 8)
  /-- R649. Every 100 µs the device samples VHOLD into RESERVE_US. -/
  | vholdSample (reserve : BitVec 16)
  /-- R587. Writing 1 to an FSTAT bit clears it, and for the recorded source also VALID and FMERGE. -/
  | fstatClear (block : BitVec 6) (mask : BitVec 32)
  /-- R588. Writing 1 to an FFORCE bit raises the source as forced. -/
  | fforce (block : BitVec 6) (mask : BitVec 32)
  /-- R600. The recorder writes a waiting occurrence as a new record or a REPEAT increment. -/
  | evrRecordWrite (ringParity : Option (BitVec 18))
  /-- R603. A checkpoint starts on its period, volume, a fatal or episode record, or CKPT_NOW. -/
  | checkpointStart
  /-- R603. A checkpoint finishes appending its records and CHECKPOINT record. -/
  | checkpointDone (norFail : Option (BitVec 32))
  /-- R595. A source routed to RESET resets the device after its checkpoint or 100 ms. -/
  | routeReset
  /-- R603. A write of EVR_CTRL.CKPT_NOW requests a checkpoint. -/
  | ckptNow
  /-- R606. A write of EVR_CTRL.LG_CLEAR clears the last-gasp file. -/
  | lgClear
  /-- R615. A debounced SD_CD_N change reports insertion or removal. -/
  | cardDetectChange (present : Bool)
  /-- R612. Card initialisation, voltage switch and mode selection end. -/
  | cardInitDone (card : CardInit)
  /-- R617. DAT0 ends busy and CMD13 confirms, errors or leaves the write uncertain. -/
  | sdWriteBusyEnd (answer : Cmd13) (wp : Bool)
  /-- R616. A card wait expires and the command ends CARD_ERROR. -/
  | sdTimeout (wait : SdWait)
  /-- R623. SD_INFO returns card status and journal state. -/
  | sdInfo (inst : BitVec 8) (crcError : Bool)
  /-- R623. SD_LIST writes the table of complete journal entries. -/
  | sdList (inst : BitVec 8) (crcError : Bool)
  /-- R623. SD_READ writes an entry's payload after its digest passes. -/
  | sdRead (inst : BitVec 8) (crcError : Bool)
  /-- R622. SD_WRITE appends a journal entry to the card. -/
  | sdWrite (inst : BitVec 8) (payload : HostRead) (wp : Bool)
  /-- R623. SD_LOG_EXPORT appends a log export entry. -/
  | sdLogExport (inst : BitVec 8) (wp : Bool)
  /-- R631. Management GET_ID returns identity and versions. -/
  | getId (bus : MgtBus)
  /-- R631. Management GET_STATUS returns health registers. -/
  | getStatus (bus : MgtBus)
  /-- R631. Management SET_OFFSET sets the read offset. -/
  | setOffset (bus : MgtBus) (offset : BitVec 32)
  /-- R631. Management CERT_LEN returns the certificate chain length. -/
  | certLen (bus : MgtBus)
  /-- R631. Management READ_CERT returns 64 bytes of the chain and advances the offset. -/
  | readCert (bus : MgtBus)
  /-- R632. Management ATTEST_START starts an attestation report with a nonce. -/
  | attestStart (bus : MgtBus) (nonce : Bytes)
  /-- R631. Management ATTEST_STATE returns the report state. -/
  | attestState (bus : MgtBus)
  /-- R631. Management READ_REPORT returns 64 bytes of the report and advances the offset. -/
  | readReport (bus : MgtBus)
  /-- R632. The signed report is ready and the state becomes ready. -/
  | attestReportReady
  /-- R630. SETDASA or ENTDAA assigns the management port's dynamic address. -/
  | i3cAddressAssign (addr : BitVec 7)
  /-- R663. A write to a register without its own row updates permitted fields and raises access events as laid down. -/
  | registerWrite (party : Party) (offset : BitVec 26) (value : BitVec 32) (enables : BitVec 4) (image : HostRead)
  /-- R44. A register read with behaviour of its own: a read of an unlisted or closed offset raises its access event, a read during bring-up raises HIU_BRINGUP_ACCESS, a denied DE_DBG_CTRL read raises LCC_DEBUG_DENY, and a read of SCH_GBEAT_LO latches the high half. -/
  | registerRead (party : Party) (offset : BitVec 26)
  /-- R109. An engine issues a word whose FMT is reserved or whose OPC is undefined for its format, or fetches beyond CODE_WORDS, and takes ILLEGAL_INSTR or IMEM_RANGE. -/
  | undefinedInstructionWord (id : EngId) (word : BitVec 64)
  /-- R402. The PCI Express link completes training into L0, setting LINK_UP, SPEED and WIDTH and raising HIU_LINK_DEGRADED when below x16 or 64 GT/s. -/
  | linkTrained (speed : BitVec 4) (width : BitVec 5) (flit : Bool)
  /-- R402. The HIU detects a link error or receives a malformed or poisoned TLP and raises HIU_PCIE_CORR, HIU_PCIE_UNCORR, HIU_PCIE_FATAL, HIU_RX_MALFORMED or HIU_RX_POISONED. -/
  | pcieErrorReceived (error : PcieError)
  /-- R533. The host writes NumVFs and sets VF Enable in the SR-IOV capability, making those VFs present as instances. -/
  | vfEnableSet (numVfs : BitVec 8)
  /-- R590. A DRAM channel loses training during operation and raises the fatal MEM_TRAIN_FAIL. -/
  | dramTrainingLost (ch : Bool)
  /-- R553. A tamper or environment source returns to its band or becomes inactive after the filter (a rail, temperature or clock back in range, XTAL32 running again, a loop closed), starting or continuing the hold time. -/
  | alarmSourceInactive (src : BitVec 4) (unit : BitVec 3)
  /-- R218. A staging mover completes filling a CSM_STREAM extent within its window before WIN_END. -/
  | streamFillDone (call : BitVec 32) (entry : BitVec 8) (data : HostRead)
  /-- R37. An access through the JTAG port or to Supervisor debug is served when the LCC enables it, or returns 0x0000_0000 and raises LCC_DEBUG_DENY when denied. -/
  | jtagAccess (supervisor : Bool)
  /-- R631. A management-port transaction carries a code not listed, or one read before the point its row gives, and is not acknowledged. -/
  | mgtUnlistedCode (code : BitVec 8)
deriving DecidableEq, Repr

end Sys2Proof
end

