-- ==== Sys2Proof/Decode.lean ====
section
/-!
DEFINITION. The command that a word of the table spells, and the words of the engines' instruction set (R108, R110). No row of
the table gives bits, so no word of the table spells a command: commands reach the block through its queue alone (log entry
10). The words of IMEM are 64 bits wide, and they decode and encode here.
-/
namespace Sys2Proof

/-- The command a word spells by the table's bits: none, because the table gives no row any bits. -/
def decodeTableWord (_nbits _w : Nat) : Option Instr := none

/-! ## The fields of an instruction word (R110) -/

/-- The fields of an SR word. -/
def SR.ofWord (x : BitVec 64) : SR where
  sd := x.extractLsb' 47 5
  sa := x.extractLsb' 42 5
  sb := x.extractLsb' 37 5
  zero := x.extractLsb' 0 37

/-- Bits [51:0] of an SR word. -/
def SR.bits (f : SR) : BitVec 52 :=
  f.sd ++ f.sa ++ f.sb ++ f.zero

/-- The fields of an SI word. -/
def SI.ofWord (x : BitVec 64) : SI where
  sd := x.extractLsb' 47 5
  sa := x.extractLsb' 42 5
  sb := x.extractLsb' 37 5
  zero := x.extractLsb' 32 5
  imm := x.extractLsb' 0 32

/-- Bits [51:0] of an SI word. -/
def SI.bits (f : SI) : BitVec 52 :=
  f.sd ++ f.sa ++ f.sb ++ f.zero ++ f.imm

/-- The fields of a CF word. -/
def CF.ofWord (x : BitVec 64) : CF where
  zero := x.extractLsb' 32 20
  t := x.extractLsb' 20 12
  n := x.extractLsb' 0 20

/-- Bits [51:0] of a CF word. -/
def CF.bits (f : CF) : BitVec 52 :=
  f.zero ++ f.t ++ f.n

/-- The fields of a VV word. -/
def VV.ofWord (x : BitVec 64) : VV where
  w := x.extractLsb' 50 2
  pr := x.getLsbD 49
  pm := x.extractLsb' 46 3
  vd := x.extractLsb' 41 5
  va := x.extractLsb' 36 5
  vb := x.extractLsb' 31 5
  vc := x.extractLsb' 26 5
  ss := x.extractLsb' 21 5
  ms := x.extractLsb' 18 3
  zero := x.extractLsb' 16 2
  imm := x.extractLsb' 0 16

/-- Bits [51:0] of a VV word. -/
def VV.bits (f : VV) : BitVec 52 :=
  f.w ++ BitVec.ofBool f.pr ++ f.pm ++ f.vd ++ f.va ++ f.vb ++ f.vc ++ f.ss ++ f.ms ++ f.zero ++ f.imm

/-- The fields of a VM word. -/
def VM.ofWord (x : BitVec 64) : VM where
  w := x.extractLsb' 50 2
  pr := x.getLsbD 49
  pm := x.extractLsb' 46 3
  vd := x.extractLsb' 41 5
  sa := x.extractLsb' 36 5
  vi := x.extractLsb' 31 5
  pd := x.extractLsb' 28 3
  nf := x.extractLsb' 26 2
  sc := x.extractLsb' 24 2
  zero := x.extractLsb' 20 4
  off := x.extractLsb' 0 20

/-- Bits [51:0] of a VM word. -/
def VM.bits (f : VM) : BitVec 52 :=
  f.w ++ BitVec.ofBool f.pr ++ f.pm ++ f.vd ++ f.sa ++ f.vi ++ f.pd ++ f.nf ++ f.sc ++ f.zero ++ f.off

/-- The fields of a VP word. -/
def VP.ofWord (x : BitVec 64) : VP where
  pd := x.extractLsb' 49 3
  pa := x.extractLsb' 46 3
  pb := x.extractLsb' 43 3
  sd := x.extractLsb' 38 5
  sa := x.extractLsb' 33 5
  zero := x.extractLsb' 0 33

/-- Bits [51:0] of a VP word. -/
def VP.bits (f : VP) : BitVec 52 :=
  f.pd ++ f.pa ++ f.pb ++ f.sd ++ f.sa ++ f.zero

/-- The fields of a KP word. -/
def KP.ofWord (x : BitVec 64) : KP where
  ts := x.getLsbD 51
  key := x.extractLsb' 49 2
  blk := x.extractLsb' 41 8
  sa := x.extractLsb' 36 5
  sb := x.extractLsb' 31 5
  sc := x.extractLsb' 26 5
  zero := x.extractLsb' 0 26

/-- Bits [51:0] of a KP word. -/
def KP.bits (f : KP) : BitVec 52 :=
  BitVec.ofBool f.ts ++ f.key ++ f.blk ++ f.sa ++ f.sb ++ f.sc ++ f.zero

/-! ## The operation codes of each format (R108) -/

/-- The SR instruction of an operation code (R118, R119). -/
def decodeSr (id : EngId) (opc : Nat) (f : SR) : Option Instr :=
  match opc with
  | 0x00 => some (.add id (.sr f))
  | 0x01 => some (.sub id f)
  | 0x02 => some (.and id (.sr f))
  | 0x03 => some (.or id (.sr f))
  | 0x04 => some (.xor id (.sr f))
  | 0x05 => some (.sll id (.sr f))
  | 0x06 => some (.srl id (.sr f))
  | 0x07 => some (.sra id (.sr f))
  | 0x08 => some (.mul id f)
  | 0x09 => some (.mulhu id f)
  | 0x0A => some (.sltu id f)
  | 0x0B => some (.slt id f)
  | _ => none

/-- The SI instruction of an operation code (R118 to R120). -/
def decodeSi (id : EngId) (opc : Nat) (f : SI) : Option Instr :=
  match opc with
  | 0x00 => some (.add id (.si f))
  | 0x02 => some (.and id (.si f))
  | 0x03 => some (.or id (.si f))
  | 0x04 => some (.xor id (.si f))
  | 0x05 => some (.sll id (.si f))
  | 0x06 => some (.srl id (.si f))
  | 0x07 => some (.sra id (.si f))
  | 0x10 => some (.movi id f)
  | 0x11 => some (.movhi id f)
  | 0x20 => some (.ldb id f)
  | 0x21 => some (.ldh id f)
  | 0x22 => some (.ldw id f)
  | 0x23 => some (.ldd id f)
  | 0x28 => some (.stb id f)
  | 0x29 => some (.sth id f)
  | 0x2A => some (.stw id f)
  | 0x2B => some (.std id f)
  | 0x30 => some (.mfc id f)
  | 0x31 => some (.mtc id f)
  | _ => none

/-- The CF instruction of an operation code (R121 to R126). -/
def decodeCf (id : EngId) (opc : Nat) (f : CF) : Option Instr :=
  match opc with
  | 0x01 => some (.nopn id f)
  | 0x02 => some (.waitb id f)
  | 0x08 => some (.jmp id f)
  | 0x09 => some (.callSub id f)
  | 0x0A => some (.ret id f)
  | 0x10 => some (.loop id f)
  | 0x3F => some (.endPeal id f)
  | _ => none

/-- The VV instruction of an operation code (R128 to R142, R162). -/
def decodeVv (id : EngId) (opc : Nat) (f : VV) : Option Instr :=
  match opc with
  | 0x00 => some (.vadd id f)
  | 0x01 => some (.vsub id f)
  | 0x02 => some (.vmullo id f)
  | 0x03 => some (.vmulhu id f)
  | 0x04 => some (.vmulhs id f)
  | 0x08 => some (.vand id f)
  | 0x09 => some (.vor id f)
  | 0x0A => some (.vxor id f)
  | 0x0B => some (.vandn id f)
  | 0x10 => some (.vslli id f)
  | 0x11 => some (.vsrli id f)
  | 0x12 => some (.vsrai id f)
  | 0x14 => some (.vsllv id f)
  | 0x15 => some (.vsrlv id f)
  | 0x18 => some (.vbcast id f)
  | 0x19 => some (.vmov id f)
  | 0x1A => some (.viota id f)
  | 0x1B => some (.vext id f)
  | 0x1C => some (.vperm id f)
  | 0x20 => some (.vcmpeq id f)
  | 0x21 => some (.vcmpltu id f)
  | 0x22 => some (.vcmplts id f)
  | 0x30 => some (.vmadd id f)
  | 0x31 => some (.vmsub id f)
  | 0x32 => some (.vmneg id f)
  | 0x33 => some (.vmmulm id f)
  | 0x34 => some (.vmmulb id f)
  | 0x35 => some (.vmmulms id f)
  | 0x36 => some (.vmred id f)
  | 0x37 => some (.vmcent id f)
  | 0x38 => some (.vmlift id f)
  | 0x3F => some (.vmodset id f)
  | 0x40 => some (.vbfct id f)
  | 0x41 => some (.vbfgs id f)
  | 0x42 => some (.vbfctx id f)
  | 0x43 => some (.vbfgsx id f)
  | 0x44 => some (.vbmul id f)
  | 0x50 => some (.vgfmul id f)
  | 0x51 => some (.vgfsqr id f)
  | 0x52 => some (.vgfinv id f)
  | 0x53 => some (.vclmullo id f)
  | 0x54 => some (.vclmulhi id f)
  | 0x5F => some (.vgfset id f)
  | 0x60 => some (.vcompr id f)
  | 0x61 => some (.vdecompr id f)
  | 0x62 => some (.vpack id f)
  | 0x63 => some (.vunpack id f)
  | 0x64 => some (.vp2r id f)
  | 0x65 => some (.vsplit id f)
  | 0x70 => some (.vcsel id f)
  | _ => none

/-- The VM instruction of an operation code (R143). -/
def decodeVm (id : EngId) (opc : Nat) (f : VM) : Option Instr :=
  match opc with
  | 0x00 => some (.vld id f)
  | 0x01 => some (.vst id f)
  | 0x04 => some (.vldff id f)
  | 0x08 => some (.vgth id f)
  | 0x09 => some (.vsct id f)
  | 0x0C => some (.vlds id f)
  | 0x0D => some (.vsts id f)
  | _ => none

/-- The VP instruction of an operation code (R127). -/
def decodeVp (id : EngId) (opc : Nat) (f : VP) : Option Instr :=
  match opc with
  | 0x00 => some (.pand id f)
  | 0x01 => some (.por id f)
  | 0x02 => some (.pxor id f)
  | 0x03 => some (.pandn id f)
  | 0x04 => some (.pnot id f)
  | 0x05 => some (.psetn id f)
  | 0x06 => some (.pcnt id f)
  | _ => none

/-- The SH instruction of an operation code (R157). -/
def decodeSh (id : EngId) (opc : Nat) (f : VV) : Option Instr :=
  match opc with
  | 0x00 => some (.smadd id f)
  | 0x01 => some (.smsub id f)
  | 0x02 => some (.smmulc id f)
  | 0x03 => some (.saddp id f)
  | 0x04 => some (.sxor id f)
  | 0x05 => some (.sxorp id f)
  | 0x06 => some (.sand id f)
  | 0x07 => some (.sref id f)
  | 0x08 => some (.sb2a id f)
  | 0x09 => some (.sa2b id f)
  | 0x0A => some (.ssplit id f)
  | 0x0B => some (.sopen id f)
  | 0x0C => some (.scsel id f)
  | 0x10 => some (.mrd id f)
  | _ => none

/-- The KC instruction of an operation code (R165). -/
def decodeKc (id : EngId) (opc : Nat) (f : VV) : Option Instr :=
  match opc with
  | 0x00 => some (.kinit id f)
  | 0x01 => some (.kabs id f)
  | 0x02 => some (.kperm id f)
  | 0x03 => some (.ksqz id f)
  | 0x04 => some (.ksave id f)
  | 0x05 => some (.krest id f)
  | 0x10 => some (.vcbd id f)
  | 0x11 => some (.vsrej id f)
  | _ => none

/-- The KP instruction of an operation code (R171). -/
def decodeKp (id : EngId) (opc : Nat) (f : KP) : Option Instr :=
  match opc with
  | 0x00 => some (.kld id f)
  | 0x01 => some (.kst id f)
  | _ => none

/-- The instruction that a word of IMEM spells for an engine; none where FMT is reserved or OPC not defined (R108, R109). -/
def decodeWord (id : EngId) (x : BitVec 64) : Option Instr :=
  let opc := (x.extractLsb' 52 8).toNat
  match (x.extractLsb' 60 4).toNat with
  | 0 => decodeSr id opc (SR.ofWord x)
  | 1 => decodeSi id opc (SI.ofWord x)
  | 2 => decodeCf id opc (CF.ofWord x)
  | 3 => decodeVv id opc (VV.ofWord x)
  | 4 => decodeVm id opc (VM.ofWord x)
  | 5 => decodeVp id opc (VP.ofWord x)
  | 6 => decodeSh id opc (VV.ofWord x)
  | 7 => decodeKc id opc (VV.ofWord x)
  | 8 => decodeKp id opc (KP.ofWord x)
  | _ => none

/-- A word from its format, its operation code and bits [51:0] (R108). -/
def wordOf (fmt : BitVec 4) (opc : BitVec 8) (bits : BitVec 52) : BitVec 64 := fmt ++ opc ++ bits

/-- The engine and the word of an instruction; none for a command that is no instruction of the engines. -/
def encodeWord (i : Instr) : Option (EngId × BitVec 64) :=
  match i with
  | .add id (.sr f) => some (id, wordOf 0 0x00 f.bits)
  | .sub id f => some (id, wordOf 0 0x01 f.bits)
  | .and id (.sr f) => some (id, wordOf 0 0x02 f.bits)
  | .or id (.sr f) => some (id, wordOf 0 0x03 f.bits)
  | .xor id (.sr f) => some (id, wordOf 0 0x04 f.bits)
  | .sll id (.sr f) => some (id, wordOf 0 0x05 f.bits)
  | .srl id (.sr f) => some (id, wordOf 0 0x06 f.bits)
  | .sra id (.sr f) => some (id, wordOf 0 0x07 f.bits)
  | .mul id f => some (id, wordOf 0 0x08 f.bits)
  | .mulhu id f => some (id, wordOf 0 0x09 f.bits)
  | .sltu id f => some (id, wordOf 0 0x0A f.bits)
  | .slt id f => some (id, wordOf 0 0x0B f.bits)
  | .add id (.si f) => some (id, wordOf 1 0x00 f.bits)
  | .and id (.si f) => some (id, wordOf 1 0x02 f.bits)
  | .or id (.si f) => some (id, wordOf 1 0x03 f.bits)
  | .xor id (.si f) => some (id, wordOf 1 0x04 f.bits)
  | .sll id (.si f) => some (id, wordOf 1 0x05 f.bits)
  | .srl id (.si f) => some (id, wordOf 1 0x06 f.bits)
  | .sra id (.si f) => some (id, wordOf 1 0x07 f.bits)
  | .movi id f => some (id, wordOf 1 0x10 f.bits)
  | .movhi id f => some (id, wordOf 1 0x11 f.bits)
  | .ldb id f => some (id, wordOf 1 0x20 f.bits)
  | .ldh id f => some (id, wordOf 1 0x21 f.bits)
  | .ldw id f => some (id, wordOf 1 0x22 f.bits)
  | .ldd id f => some (id, wordOf 1 0x23 f.bits)
  | .stb id f => some (id, wordOf 1 0x28 f.bits)
  | .sth id f => some (id, wordOf 1 0x29 f.bits)
  | .stw id f => some (id, wordOf 1 0x2A f.bits)
  | .std id f => some (id, wordOf 1 0x2B f.bits)
  | .mfc id f => some (id, wordOf 1 0x30 f.bits)
  | .mtc id f => some (id, wordOf 1 0x31 f.bits)
  | .nopn id f => some (id, wordOf 2 0x01 f.bits)
  | .waitb id f => some (id, wordOf 2 0x02 f.bits)
  | .jmp id f => some (id, wordOf 2 0x08 f.bits)
  | .callSub id f => some (id, wordOf 2 0x09 f.bits)
  | .ret id f => some (id, wordOf 2 0x0A f.bits)
  | .loop id f => some (id, wordOf 2 0x10 f.bits)
  | .endPeal id f => some (id, wordOf 2 0x3F f.bits)
  | .vadd id f => some (id, wordOf 3 0x00 f.bits)
  | .vsub id f => some (id, wordOf 3 0x01 f.bits)
  | .vmullo id f => some (id, wordOf 3 0x02 f.bits)
  | .vmulhu id f => some (id, wordOf 3 0x03 f.bits)
  | .vmulhs id f => some (id, wordOf 3 0x04 f.bits)
  | .vand id f => some (id, wordOf 3 0x08 f.bits)
  | .vor id f => some (id, wordOf 3 0x09 f.bits)
  | .vxor id f => some (id, wordOf 3 0x0A f.bits)
  | .vandn id f => some (id, wordOf 3 0x0B f.bits)
  | .vslli id f => some (id, wordOf 3 0x10 f.bits)
  | .vsrli id f => some (id, wordOf 3 0x11 f.bits)
  | .vsrai id f => some (id, wordOf 3 0x12 f.bits)
  | .vsllv id f => some (id, wordOf 3 0x14 f.bits)
  | .vsrlv id f => some (id, wordOf 3 0x15 f.bits)
  | .vbcast id f => some (id, wordOf 3 0x18 f.bits)
  | .vmov id f => some (id, wordOf 3 0x19 f.bits)
  | .viota id f => some (id, wordOf 3 0x1A f.bits)
  | .vext id f => some (id, wordOf 3 0x1B f.bits)
  | .vperm id f => some (id, wordOf 3 0x1C f.bits)
  | .vcmpeq id f => some (id, wordOf 3 0x20 f.bits)
  | .vcmpltu id f => some (id, wordOf 3 0x21 f.bits)
  | .vcmplts id f => some (id, wordOf 3 0x22 f.bits)
  | .vmadd id f => some (id, wordOf 3 0x30 f.bits)
  | .vmsub id f => some (id, wordOf 3 0x31 f.bits)
  | .vmneg id f => some (id, wordOf 3 0x32 f.bits)
  | .vmmulm id f => some (id, wordOf 3 0x33 f.bits)
  | .vmmulb id f => some (id, wordOf 3 0x34 f.bits)
  | .vmmulms id f => some (id, wordOf 3 0x35 f.bits)
  | .vmred id f => some (id, wordOf 3 0x36 f.bits)
  | .vmcent id f => some (id, wordOf 3 0x37 f.bits)
  | .vmlift id f => some (id, wordOf 3 0x38 f.bits)
  | .vmodset id f => some (id, wordOf 3 0x3F f.bits)
  | .vbfct id f => some (id, wordOf 3 0x40 f.bits)
  | .vbfgs id f => some (id, wordOf 3 0x41 f.bits)
  | .vbfctx id f => some (id, wordOf 3 0x42 f.bits)
  | .vbfgsx id f => some (id, wordOf 3 0x43 f.bits)
  | .vbmul id f => some (id, wordOf 3 0x44 f.bits)
  | .vgfmul id f => some (id, wordOf 3 0x50 f.bits)
  | .vgfsqr id f => some (id, wordOf 3 0x51 f.bits)
  | .vgfinv id f => some (id, wordOf 3 0x52 f.bits)
  | .vclmullo id f => some (id, wordOf 3 0x53 f.bits)
  | .vclmulhi id f => some (id, wordOf 3 0x54 f.bits)
  | .vgfset id f => some (id, wordOf 3 0x5F f.bits)
  | .vcompr id f => some (id, wordOf 3 0x60 f.bits)
  | .vdecompr id f => some (id, wordOf 3 0x61 f.bits)
  | .vpack id f => some (id, wordOf 3 0x62 f.bits)
  | .vunpack id f => some (id, wordOf 3 0x63 f.bits)
  | .vp2r id f => some (id, wordOf 3 0x64 f.bits)
  | .vsplit id f => some (id, wordOf 3 0x65 f.bits)
  | .vcsel id f => some (id, wordOf 3 0x70 f.bits)
  | .vld id f => some (id, wordOf 4 0x00 f.bits)
  | .vst id f => some (id, wordOf 4 0x01 f.bits)
  | .vldff id f => some (id, wordOf 4 0x04 f.bits)
  | .vgth id f => some (id, wordOf 4 0x08 f.bits)
  | .vsct id f => some (id, wordOf 4 0x09 f.bits)
  | .vlds id f => some (id, wordOf 4 0x0C f.bits)
  | .vsts id f => some (id, wordOf 4 0x0D f.bits)
  | .pand id f => some (id, wordOf 5 0x00 f.bits)
  | .por id f => some (id, wordOf 5 0x01 f.bits)
  | .pxor id f => some (id, wordOf 5 0x02 f.bits)
  | .pandn id f => some (id, wordOf 5 0x03 f.bits)
  | .pnot id f => some (id, wordOf 5 0x04 f.bits)
  | .psetn id f => some (id, wordOf 5 0x05 f.bits)
  | .pcnt id f => some (id, wordOf 5 0x06 f.bits)
  | .smadd id f => some (id, wordOf 6 0x00 f.bits)
  | .smsub id f => some (id, wordOf 6 0x01 f.bits)
  | .smmulc id f => some (id, wordOf 6 0x02 f.bits)
  | .saddp id f => some (id, wordOf 6 0x03 f.bits)
  | .sxor id f => some (id, wordOf 6 0x04 f.bits)
  | .sxorp id f => some (id, wordOf 6 0x05 f.bits)
  | .sand id f => some (id, wordOf 6 0x06 f.bits)
  | .sref id f => some (id, wordOf 6 0x07 f.bits)
  | .sb2a id f => some (id, wordOf 6 0x08 f.bits)
  | .sa2b id f => some (id, wordOf 6 0x09 f.bits)
  | .ssplit id f => some (id, wordOf 6 0x0A f.bits)
  | .sopen id f => some (id, wordOf 6 0x0B f.bits)
  | .scsel id f => some (id, wordOf 6 0x0C f.bits)
  | .mrd id f => some (id, wordOf 6 0x10 f.bits)
  | .kinit id f => some (id, wordOf 7 0x00 f.bits)
  | .kabs id f => some (id, wordOf 7 0x01 f.bits)
  | .kperm id f => some (id, wordOf 7 0x02 f.bits)
  | .ksqz id f => some (id, wordOf 7 0x03 f.bits)
  | .ksave id f => some (id, wordOf 7 0x04 f.bits)
  | .krest id f => some (id, wordOf 7 0x05 f.bits)
  | .vcbd id f => some (id, wordOf 7 0x10 f.bits)
  | .vsrej id f => some (id, wordOf 7 0x11 f.bits)
  | .kld id f => some (id, wordOf 8 0x00 f.bits)
  | .kst id f => some (id, wordOf 8 0x01 f.bits)
  | _ => none

end Sys2Proof
end

