-- ==== Sys2Proof/Config.lean ====
section
/-!
DEFINITION. The free values: what the spec leaves open is a constant without a body, so that nothing proves a value of it.
-/
namespace Sys2Proof

/-- 128 bits of one mask-generator lane: current seed, lane number, counter (R76, R173; the input layout of the
permutation is not given). -/
opaque Config.mrgLane : BitVec 256 → Nat → Nat → BitVec 128

/-- One Keccak-p[800] step of a seed with domain byte 0xC3 (R78; the placing of the bits is not given). -/
opaque Config.seedStep : BitVec 256 → BitVec 256

/-- The mask an instruction issued at an ec uses for share `j` of element `i`, from the mask-generator output it draws
(R158, R160, R163; which output bits serve which share is not given). -/
opaque Config.shareMask : BitVec 256 → Nat → Nat → Nat → Nat

/-- The mask of share `j` of a Keccak state after a masked permutation (R74, R77). -/
opaque Config.kccMask : BitVec 256 → Nat → Nat → BitVec 1600

/-- A byte the spec calls unspecified; the argument is fresh at each use (R218). -/
opaque Config.freeByte : Nat → BitVec 8

/-- The mask of a slot under a sweep seed: 32 bytes (R417; the expander is not given). -/
opaque Config.slotMask : BitVec 256 → Nat → BitVec 256

/-- The test root, fixed in logic (R403; its value is not given). -/
opaque Config.testRoot : BitVec 256

/-- The Device Serial Number of the PF (R339; its value is not given). -/
opaque Config.dsn : BitVec 64

/-- The byte that the key table XORs into both shares of a delivery: mask seed, delivery count, byte (R418). -/
opaque Config.deliverMask : BitVec 256 → Nat → Nat → BitVec 8

/-- The byte of the second share of a key that the Sealing Unit unseals: its count of unsealings, byte (R418). -/
opaque Config.unsealMask : Nat → Nat → BitVec 8

/-- 40 Miller–Rabin rounds on a number (R304; the bases are not given). -/
opaque Config.probablePrime : Nat → Bool

/-- The primes that RSA key generation accepts: modulus bits, public exponent, random blocks (R305; how candidates come from
the blocks is not given), and the message of its test signature (R310; not given). -/
opaque Config.rsaPrimes : Nat → Nat → List (BitVec 8) → Nat × Nat
opaque Config.rsaProbe : Nat → Nat

/-- A number drawn below an order, for a private key and for a random nonce of ECDSA: order and random block (R301, R303; how it
comes from the block is not given). -/
opaque Config.ecScalar : Nat → List (BitVec 8) → Nat
opaque Config.ecdsaNonce : Nat → List (BitVec 8) → Nat

/-- The encoding of PSS where digest and salt are too long for the modulus: digest, random block (R302; no result given). -/
opaque Config.pssUnfit : List (BitVec 8) → List (BitVec 8) → List (BitVec 8)

/-- The microaddress at a MAU fault that an operand names (R329; the microcode is the Maker's). -/
opaque Config.faultUaddr : Nat → BitVec 13

/-- The control-store ROM, and the microaddress at which a routine begins: an opcode, or 0x100 and a raw command code (R331; the
microcode is the Maker's). -/
opaque Config.rom : Nat → BitVec 160
opaque Config.microEntry : Nat → Nat

/-- What the datapath bits of a microword load into a loop counter, if anything; what a decrement of a counter at 0 leaves; and
conditions 5 (last operand word) and 6 to 15 (reserved) at a use (R331; not given). -/
opaque Config.counterLoad : BitVec 137 → Nat → Option Nat
opaque Config.counterWrap : Nat
opaque Config.microCond : Nat → Nat → Bool

/-- Whether a score signature verifies: signer (1 the Maker library key, 2 the Owner score key), digest of the Owner
score key, message, signature (R509; log entry 15). -/
opaque Config.scoreVerify : Nat → BitVec 256 → List (BitVec 8) → List (BitVec 8) → Bool

/-- The intermediate state of a message in a save record: algorithm and message bytes so far (R488; layout not given). -/
opaque Config.digestState : Nat → List (BitVec 8) → List (BitVec 8)

/-- ML-DSA-87 verification in pure mode: public key, context, message, signature (log entry 15). -/
opaque Config.mlDsa87Verify : List (BitVec 8) → List (BitVec 8) → List (BitVec 8) → List (BitVec 8) → Bool

/-- ECDSA P-384 verification with SHA-384: public key, message, signature r ‖ s (log entry 15). -/
opaque Config.ecdsaP384Verify : List (BitVec 8) → List (BitVec 8) → List (BitVec 8) → Bool

/-- Verification under a Maker key whose digest the boot ROM holds: context, message, signature (R513, R525, R537). -/
opaque Config.makerVerify : List (BitVec 8) → List (BitVec 8) → List (BitVec 8) → Bool

/-- The identity key of R8 made from its seed: public key, and a signature with context "AK-ATTEST" over a message
(R404, R633; log entry 15). -/
opaque Config.identityPk : BitVec 256 → List (BitVec 8)
opaque Config.identitySign : BitVec 256 → List (BitVec 8) → List (BitVec 8)

/-- The certificate chain from an identity public key to the Maker (R8; not given). -/
opaque Config.certChain : List (BitVec 8) → List (BitVec 8)

/-- The Owner's migration domain key (R389; where it comes from is not given). -/
opaque Config.migrationKey : BitVec 256

/-- A patch package's body opened under the Maker patch key: its patch-RAM words and match registers (R335, R537; the
layout is not given). -/
opaque Config.patchWord : List (BitVec 8) → Nat → BitVec 160
opaque Config.patchMatch : List (BitVec 8) → Nat → BitVec 32

/-- A state of the mesh register taken from the design B oscillator (R563). -/
opaque Config.meshNoise : Nat → BitVec 31

/-- Key generation, encapsulation and decapsulation of a KEM set: random bytes give ek and dk; ek and m give ct and K; dk
and ct give K, or the implicit-rejection key (R255, R258, R274; log entry 15). -/
opaque Config.kemKeygen : Nat → List (BitVec 8) → List (BitVec 8) × List (BitVec 8)
opaque Config.kemEncaps : Nat → List (BitVec 8) → List (BitVec 8) → List (BitVec 8) × List (BitVec 8)
opaque Config.kemDecaps : Nat → List (BitVec 8) → List (BitVec 8) → List (BitVec 8)

/-- Key generation of a signature set: random bytes give pk and sk (R259, R261, R265, R277; log entry 15). -/
opaque Config.sigKeygen : Nat → List (BitVec 8) → List (BitVec 8) × List (BitVec 8)

/-- The public key that belongs to a private key of ML-DSA, FN-DSA, Ed25519 or Ed448; PK.root of SLH-DSA from SK.seed and
PK.seed (R265, R277, R282; log entry 15). -/
opaque Config.sigPkOf : Nat → List (BitVec 8) → List (BitVec 8)
opaque Config.slhRoot : Nat → List (BitVec 8) → List (BitVec 8) → List (BitVec 8)

/-- Signing: set, AUX, ctx, message, sk, random bytes (log entry 15). -/
opaque Config.sigSign : Nat → Nat → List (BitVec 8) → List (BitVec 8) → List (BitVec 8) → List (BitVec 8) → List (BitVec 8)

/-- Verification: set, AUX, pk, ctx, message, signature (log entry 15). -/
opaque Config.sigVerify : Nat → Nat → List (BitVec 8) → List (BitVec 8) → List (BitVec 8) → List (BitVec 8) → Bool

/-- The attempt peals of a chain: opcode, AUX, input, keys, random bytes (R665). -/
opaque Config.attempts : Nat → Nat → List (BitVec 8) → List (BitVec 8) → List (BitVec 8) → Nat

/-- The fixed attempt count of an opcode and part (R265, R670; not given). -/
opaque Config.fixedAttempts : Nat → Nat → Nat

/-- SLH-DSA in parts: the state after part 0 of signing, a later part, and the state after it (R267, R269; log entry 15).
-/
opaque Config.slhState : Nat → Nat → List (BitVec 8) → List (BitVec 8) → List (BitVec 8) → List (BitVec 8)
opaque Config.slhPart : Nat → Nat → List (BitVec 8) → List (BitVec 8) → List (BitVec 8)
opaque Config.slhNext : Nat → Nat → List (BitVec 8) → List (BitVec 8) → List (BitVec 8)

/-- SLH-DSA verification in parts: the state after part 0, after a later part, and the verdict (R268). -/
opaque Config.slhAbsorb0 : Nat → Nat → List (BitVec 8) → List (BitVec 8) → List (BitVec 8) → List (BitVec 8)
opaque Config.slhAbsorb : Nat → Nat → List (BitVec 8) → List (BitVec 8) → List (BitVec 8) → List (BitVec 8)
opaque Config.slhVerdict : Nat → List (BitVec 8) → List (BitVec 8) → Bool

/-- A stateful tree: its identifier, the seeds of a lower layer, leaf values, root (R270 to R272; log entry 15). Leaves and
root depend on family, signing opcode, height, hash bytes, layer, codes, identifier and seeds. -/
opaque Config.treeIdent : List (BitVec 8) → List (BitVec 8) → List (BitVec 8)
opaque Config.treeSeeds : List (BitVec 8) → List (BitVec 8)
opaque Config.treeLeaf : List (BitVec 8) → Nat → Nat → List (BitVec 8)
opaque Config.treeRoot : List (BitVec 8) → List (BitVec 8)

/-- A stateful signature: tree entry, index, message, path; whether it verifies under the entry's own tree (R282); and whether
the path gives the stored root (R273). -/
opaque Config.treeSign : List (BitVec 8) → Nat → List (BitVec 8) → List (BitVec 8) → List (BitVec 8)
opaque Config.treeSigOk : List (BitVec 8) → Nat → List (BitVec 8) → List (BitVec 8) → List (BitVec 8) → Bool
opaque Config.treePathOk : List (BitVec 8) → Nat → List (BitVec 8) → Bool

/-- Stateful verification: family, pk, message and signature (R273; log entry 15). -/
opaque Config.treeVerify : Nat → List (BitVec 8) → List (BitVec 8) → Bool

/-- Classic McEliece procedures: random bytes to a job identifier and Goppa record; a panel; whether the matrix is
singular at a pivot; a panel after a pivot step or an elimination; the private key; a public panel (R276; log entry 15).
-/
opaque Config.mceJobId : List (BitVec 8) → List (BitVec 8)
opaque Config.mceGoppa : Nat → List (BitVec 8) → List (BitVec 8)
opaque Config.mceInit : Nat → Nat → List (BitVec 8) → List (BitVec 8)
opaque Config.mceSingular : Nat → Nat → List (BitVec 8) → Bool
opaque Config.mcePivot : Nat → Nat → List (BitVec 8) → List (BitVec 8)
opaque Config.mceElim : Nat → Nat → List (BitVec 8) → List (BitVec 8) → List (BitVec 8)
opaque Config.mceSk : Nat → List (BitVec 8) → List (BitVec 8)
opaque Config.mcePanelOut : Nat → Nat → List (BitVec 8) → List (BitVec 8)

/-- McEliece encapsulation: e from a random block, the state after rows, ct and K (R275; log entry 15). -/
opaque Config.mceE : Nat → List (BitVec 8) → List (BitVec 8)
opaque Config.mceRows : Nat → Nat → List (BitVec 8) → List (BitVec 8) → List (BitVec 8)
opaque Config.mceCtK : Nat → List (BitVec 8) → List (BitVec 8) × List (BitVec 8)

/-- The mask of byte `j` of output key `n` that a library score stores under a mask seed (R72, R160). -/
opaque Config.outMask : BitVec 256 → Nat → Nat → BitVec 8

/-- The time in mc of an RSA key generation of a size without a published mean (R306). -/
opaque Config.rsaKeygenTime : Nat → Nat

/-- The length of a record or key whose length the spec does not give (R269, R271, R276): type, opcode or height. -/
opaque Config.recordLen : Nat → Nat → Nat

end Sys2Proof
end

