-- ==== Sys2Proof/Machine/Maps.lean ====
section
/-!
DEFINITION. The operations over sparse stores (one canonical form), and byte strings in them.
-/
namespace Sys2Proof.Machine

/-- The value at key `i`; `d` is what an unlisted key reads as. -/
def mget {α : Type} (d : Nat → α) : Map α → Nat → α
  | [], i => d i
  | (k, v) :: t, i => if k = i then v else mget d t i

/-- The store without the entries of key `i`. -/
def mdel {α : Type} (m : Map α) (i : Nat) : Map α := m.filter fun e => e.1 != i

/-- Puts an entry before the first greater key. -/
def minsert {α : Type} (i : Nat) (x : α) : Map α → Map α
  | [] => [(i, x)]
  | (k, v) :: t => if i < k then (i, x) :: (k, v) :: t else (k, v) :: minsert i x t

/-- Writes `x` at key `i`, keeping keys rising and no entry equal to its default. -/
def mset {α : Type} [DecidableEq α] (d : Nat → α) (m : Map α) (i : Nat) (x : α) : Map α :=
  if x = d i then mdel m i else minsert i x (mdel m i)

/-- Returns every key of `[lo, lo + n)` to its default. -/
def mclear {α : Type} (m : Map α) (lo n : Nat) : Map α :=
  m.filter fun e => !(decide (lo ≤ e.1) && decide (e.1 < lo + n))

/-- Keeps only the keys of `[lo, lo + n)`. -/
def mkeep {α : Type} (m : Map α) (lo n : Nat) : Map α :=
  m.filter fun e => decide (lo ≤ e.1) && decide (e.1 < lo + n)

/-- Applies a change to every listed entry, dropping those that become what their key reads as anyway. -/
def mmap {α : Type} [DecidableEq α] (d : Nat → α) (f : Nat → α → α) : Map α → Map α
  | [] => []
  | (k, v) :: t => mset d (mmap d f t) k (f k v)

/-- The keys of `m` lie strictly above `b`, strictly rising, and no entry equals its default. -/
def mwfFrom {α : Type} [DecidableEq α] (d : Nat → α) : Option Nat → Map α → Bool
  | _, [] => true
  | b, (k, v) :: t =>
    (match b with | none => true | some l => decide (l < k)) && !decide (v = d k) && mwfFrom d (some k) t

/-- The canonical form of a sparse store. -/
def mwf {α : Type} [DecidableEq α] (d : Nat → α) (m : Map α) : Bool := mwfFrom d none m

/-- What an unlisted byte of a memory reads as: 0 (see log entry 2). -/
def zeroByte : Nat → Byte := fun _ => 0#8

/-- One byte of a byte memory. -/
def rdByte (m : Map Byte) (a : Nat) : Byte := mget zeroByte m a

/-- A byte memory after one byte is written. -/
def wrByte (m : Map Byte) (a : Nat) (b : Byte) : Map Byte := mset zeroByte m a b

/-- `n` bytes from address `a` on. -/
def rdBytes (m : Map Byte) (a n : Nat) : Bytes := (List.range n).map fun i => rdByte m (a + i)

/-- Writes a byte string from address `a` on. -/
def wrBytes (m : Map Byte) : Nat → Bytes → Map Byte
  | _, [] => m
  | a, b :: t => wrBytes (wrByte m a b) (a + 1) t

/-- The canonical form of a byte memory. -/
def Memory.wf (m : Map Byte) : Bool := mwf zeroByte m

/-- A byte string read little-endian as a number. -/
def leNat : Bytes → Nat
  | [] => 0
  | b :: t => b.toNat + 256 * leNat t

/-- The `n` little-endian bytes of a number. -/
def natLe : Nat → Nat → Bytes
  | 0, _ => []
  | n + 1, v => BitVec.ofNat 8 v :: natLe n (v / 256)

/-- A byte string read big-endian as a number. -/
def beNat (b : Bytes) : Nat := leNat b.reverse

/-- The `n` big-endian bytes of a number. -/
def natBe (n v : Nat) : Bytes := (natLe n v).reverse

/-- A little-endian field of a byte string: `n` bytes at offset `o` (bytes beyond the end read 0). -/
def leAt (b : Bytes) (o n : Nat) : Nat := leNat ((b.drop o).take n)

/-- The first `n` bytes of a string, filled with zeros to length `n`. -/
def padTo (n : Nat) (b : Bytes) : Bytes := (b ++ List.replicate n 0#8).take n

/-- `f n`, with `n` computed before `f` sees it, so that long folds of numbers evaluate step by step. -/
def withNat {α : Type} (n : Nat) (f : Nat → α) : α :=
  match n with
  | 0 => f 0
  | k + 1 => f (k + 1)

end Sys2Proof.Machine
end

