-- ==== Sys2Proof/Machine/Aes.lean ====
section
/-!
DEFINITION. AES-256 (FIPS 197) and what the spec builds on it: GCM (SP 800-38D), key wrap with padding (RFC 5649) and CTR_DRBG
with derivation function (SP 800-90A). The spec names these standards and does not restate them (log entry 15).
-/
namespace Sys2Proof.Machine

/-! ## AES-256 -/

/-- The S-box, 32 entries to a number, the first the least significant byte. -/
def aesSbox : List Nat :=
  [0xC072A49CAFA2D4ADF04759FA7DC982CA76ABD7FE2B670130C56F6BF27B777C63,
   0x75B227EBE28012079A059618C323C7041531D871F1E5A534CCF73F362693FDB7,
   0xCF584C4A39BECB6A5BB1FC20ED00D153842FE329B3D63B52A05A6E1B1A2C8309,
   0xD2F3FF1021DAB6BCF5389D928F40A351A89F3C507F02F94585334D43FBAAEFD0,
   0xDB0B5EDE14B8EE4688902A22DC4F816073195D643D7EA7C41744975FEC130CCD,
   0x08AE7A65EAF4566CA94ED58D6D37C8E779E4959162ACD3C25C2406490A3A32E0,
   0x9E1DC186B95735610EF6034866B53E708A8BBD4B1F74DDE8C6B4A61C2E2578BA,
   0x16BB54B00F2D99416842E6BF0D89A18CDF2855CEE9871E9B948ED9691198F8E1]

/-- The inverse S-box. -/
def aesInvSbox : List Nat :=
  [0xCBE9DEC444438E3487FF2F9B8239E37CFBD7F3819EA340BF38A53630D56A0952,
   0x25D18B6D49A25B76B224D92866A12E084EC3FA420B954CEE3D23C2A632947B54,
   0x849D8DA75746155EDAB9EDFD5048706C92B6655DCC5CA4D41698688664F6F872,
   0x6B8A130103BDAFC1020F3FCA8F1E2CD00645B3B80558E4F70AD3BC8C00ABD890,
   0x6EDF751CE837F9E28535ADE72274AC9673E6B4F0CECFF297EADC674F4111913A,
   0xF45ACD78FEC0DB9A2079D2C64B3E56FC1BBE18AA0E62B76F89C5291D711AF147,
   0xEF9CC9939F7AE52D0D4AB519A97F51605FEC8027591012B131C7078833A8DD1F,
   0x7D0C2155631469E126D677BA7E042B17619953833CBBEBC8B0F52AAE4D3BE0A0]

/-- An entry of a table of 256 bytes. -/
def boxAt (t : List Nat) (x : Nat) : Nat := t.getD (x / 32) 0 >>> (8 * (x % 32)) % 256

/-- Multiplication by x in GF(2^8), and of two bytes. -/
def xtime (a : Nat) : Nat := if a < 128 then 2 * a else (2 * a) ^^^ 0x11B
def gmul (a b : Nat) : Nat := (List.range 8).foldl (fun r i => xtime r ^^^ (if b.testBit (7 - i) then a else 0)) 0

/-- The key schedule, the latest word first, extended by `n` words from word `i` on, with the next round constant. -/
def aesExpand : Nat → Nat → Nat → List (List Nat) → List (List Nat)
  | 0, _, _, l => l
  | n + 1, i, rc, l =>
    let w := (l.getD 0 []).map fun x => boxAt aesSbox x
    let t := if i % 8 = 0 then [w.getD 1 0 ^^^ rc, w.getD 2 0, w.getD 3 0, w.getD 0 0] else if i % 8 = 4 then w else l.getD 0 []
    aesExpand n (i + 1) (if i % 8 = 0 then xtime rc else rc) (List.zipWith (· ^^^ ·) (l.getD 7 []) t :: l)

/-- The 15 round keys of a key of 32 bytes. -/
def aesKeys (key : List Nat) : List (List Nat) :=
  let w := (aesExpand 52 8 1 ((List.range 8).map fun i => (key.drop (4 * i)).take 4).reverse).reverse
  (List.range 15).map fun i => ((w.drop (4 * i)).take 4).flatten

/-- Addition of a round key. -/
def addKey (s k : List Nat) : List Nat := List.zipWith (· ^^^ ·) s k

/-- ShiftRows and its inverse: the byte of row r, column c is s[r + 4 c]. -/
def shiftRows (s : List Nat) : List Nat := (List.range 16).map fun i => s.getD ((i + 4 * (i % 4)) % 16) 0
def invShiftRows (s : List Nat) : List Nat := (List.range 16).map fun i => s.getD ((i + 12 * (i % 4)) % 16) 0

/-- Each column times a circulant matrix of the first row given. -/
def mixColumns (m s : List Nat) : List Nat :=
  (List.range 16).map fun i => (List.range 4).foldl (fun x j => x ^^^ gmul (s.getD (i / 4 * 4 + j) 0) (m.getD ((j + 4 - i % 4) % 4) 0)) 0

/-- One round of the cipher and of its inverse. -/
def aesRound (s k : List Nat) : List Nat := addKey (mixColumns [2, 3, 1, 1] (shiftRows (s.map (boxAt aesSbox)))) k
def aesInvRound (s k : List Nat) : List Nat := mixColumns [14, 11, 13, 9] (addKey ((invShiftRows s).map (boxAt aesInvSbox)) k)

/-- A block and a key as the cipher's bytes, and back. -/
def octets (b : Bytes) : List Nat := b.map (·.toNat)
def unoctets (l : List Nat) : Bytes := l.map (BitVec.ofNat 8)

/-- AES-256 of a block of 16 bytes under the round keys. -/
def aesBlock (ks : List (List Nat)) (b : Bytes) : Bytes :=
  let s := ((ks.drop 1).take 13).foldl aesRound (addKey (octets b) (ks.getD 0 []))
  unoctets (addKey (shiftRows (s.map (boxAt aesSbox))) (ks.getD 14 []))

/-- The inverse cipher. -/
def aesInvBlock (ks : List (List Nat)) (b : Bytes) : Bytes :=
  let s := ((ks.drop 1).take 13).reverse.foldl aesInvRound (addKey (octets b) (ks.getD 14 []))
  unoctets (addKey ((invShiftRows s).map (boxAt aesInvSbox)) (ks.getD 0 []))

/-- The round keys of a 256-bit key, byte 0 the least significant. -/
def aesKey (k : BitVec 256) : List (List Nat) := aesKeys (octets (natLe 32 k.toNat))

/-- Bytes added bit by bit, as many as both have. -/
def xorBlocks (a b : Bytes) : Bytes := List.zipWith (· ^^^ ·) a b

/-! ## GCM -/

/-- The product of GCM's field, of numbers whose top bit is the first. -/
def ghMul (x y : Nat) : Nat :=
  ((List.range 128).foldl (fun (p : Nat × Nat) i =>
    (if x.testBit (127 - i) then p.1 ^^^ p.2 else p.1, if p.2 % 2 = 1 then (p.2 / 2) ^^^ (0xE1 <<< 120) else p.2 / 2)) (0, y)).1

/-- The 16-byte blocks of a string, the last filled with zeros. -/
def blocks16 (b : Bytes) : List Bytes := (List.range ((b.length + 15) / 16)).map fun i => padTo 16 (b.drop (16 * i))

/-- GHASH of blocks. -/
def ghash (h : Nat) (l : List Bytes) : Nat := l.foldl (fun y b => ghMul (y ^^^ beNat b) h) 0

/-- Counter mode from a 16-byte counter block whose last 32 bits count, over a string. -/
def gctr (ks : List (List Nat)) (iv : Bytes) (n : Nat) (b : Bytes) : Bytes :=
  xorBlocks b ((List.range ((b.length + 15) / 16)).flatMap fun i => aesBlock ks (iv ++ natBe 4 (n + i)))

/-- The tag of a ciphertext. -/
def gcmTag (ks : List (List Nat)) (iv aad ct : Bytes) : Bytes :=
  let h := beNat (aesBlock ks (List.replicate 16 0#8))
  let t := ghash h (blocks16 aad ++ blocks16 ct ++ [natBe 8 (8 * aad.length) ++ natBe 8 (8 * ct.length)])
  xorBlocks (natBe 16 t) (aesBlock ks (iv ++ natBe 4 1))

/-- AES-256-GCM sealing: key, IV, associated data, plaintext; ciphertext and tag (R391, R429, R488). -/
@[irreducible] def gcmSeal (key : BitVec 256) (iv : BitVec 96) (aad pt : Bytes) : Bytes :=
  let ks := aesKey key
  let n := natLe 12 iv.toNat
  let ct := gctr ks n 2 pt
  ct ++ gcmTag ks n aad ct

/-- AES-256-GCM opening: the plaintext, or none where the tag fails. -/
@[irreducible] def gcmOpen (key : BitVec 256) (iv : BitVec 96) (aad ct : Bytes) : Option Bytes :=
  let ks := aesKey key
  let n := natLe 12 iv.toNat
  let body := ct.take (ct.length - 16)
  if 16 ≤ ct.length ∧ gcmTag ks n aad body = ct.drop body.length then some (gctr ks n 2 body) else none

/-! ## Key wrap with padding -/

/-- One wrapping step of RFC 3394: the register, the blocks of 8 bytes, step number. -/
def wrapStep (ks : List (List Nat)) (p : Bytes × List Bytes) (t : Nat) : Bytes × List Bytes :=
  match p.2 with
  | [] => p
  | r :: l =>
    let b := aesBlock ks (p.1 ++ r)
    (xorBlocks (b.take 8) (natBe 8 t), l ++ [b.drop 8])

/-- Its inverse, on the blocks in reverse order. -/
def unwrapStep (ks : List (List Nat)) (p : Bytes × List Bytes) (t : Nat) : Bytes × List Bytes :=
  match p.2 with
  | [] => p
  | r :: l =>
    let b := aesInvBlock ks (xorBlocks p.1 (natBe 8 t) ++ r)
    (b.take 8, l ++ [b.drop 8])

/-- The blocks of 8 bytes of a string, the last filled with zeros. -/
def blocks8 (b : Bytes) : List Bytes := (List.range ((b.length + 7) / 8)).map fun i => padTo 8 (b.drop (8 * i))

/-- The constant of RFC 5649. -/
def kwpIcv : Bytes := [0xA6#8, 0x59#8, 0x59#8, 0xA6#8]

/-- AES key wrap with padding under a key of 32 bytes (R442). -/
@[irreducible] def aesWrap (key pt : Bytes) : Bytes :=
  let ks := aesKeys (octets (padTo 32 key))
  let a := kwpIcv ++ natBe 4 pt.length
  let l := blocks8 pt
  if l.length ≤ 1 then aesBlock ks (a ++ l.flatten)
  else
    let r := ((List.range (6 * l.length)).map (· + 1)).foldl (wrapStep ks) (a, l)
    r.1 ++ r.2.flatten

/-- Its inverse; none where the constant, the length or the padding is wrong. -/
@[irreducible] def aesUnwrap (key ct : Bytes) : Option Bytes :=
  let ks := aesKeys (octets (padTo 32 key))
  let n := ct.length / 8 - 1
  let r : Bytes × Bytes :=
    if n = 1 then let b := aesInvBlock ks ct; (b.take 8, b.drop 8)
    else
      let u := ((List.range (6 * n)).map (· + 1)).reverse.foldl (unwrapStep ks) (ct.take 8, (blocks8 (ct.drop 8)).reverse)
      (u.1, u.2.reverse.flatten)
  let len := beNat (r.1.drop 4)
  if ct.length % 8 = 0 ∧ 1 ≤ n ∧ r.1.take 4 = kwpIcv ∧ len ≤ 8 * n ∧ 8 * n < len + 8 ∧ (r.2.drop len).all (· == 0#8)
  then some (r.2.take len) else none

/-! ## CTR_DRBG -/

/-- A working state: the key in the low 32 bytes, V in the next 16 (log entry 15). -/
def drbgKey (w : BitVec 512) : Bytes := natLe 32 w.toNat
def drbgV (w : BitVec 512) : Nat := beNat (natLe 16 (w >>> 256).toNat)
def drbgState (key : Bytes) (v : Nat) : BitVec 512 := BitVec.ofNat 512 (leNat (key.take 32 ++ natBe 16 v))

/-- `n` blocks of the counter after V. -/
def ctrBlocks (ks : List (List Nat)) (v n : Nat) : Bytes :=
  (List.range n).flatMap fun i => aesBlock ks (natBe 16 ((v + i + 1) % 2 ^ 128))

/-- CTR_DRBG_Update of a key and V with 48 bytes of provided data. -/
def drbgUpdate (key : Bytes) (v : Nat) (data : Bytes) : BitVec 512 :=
  let t := xorBlocks (ctrBlocks (aesKeys (octets key)) v 3) data
  drbgState (t.take 32) (beNat (t.drop 32))

/-- BCC of SP 800-90A. -/
def bcc (ks : List (List Nat)) (l : List Bytes) : Bytes :=
  l.foldl (fun x b => aesBlock ks (xorBlocks x b)) (List.replicate 16 0#8)

/-- Block_Cipher_df with 48 bytes of output. -/
def blockDf (input : Bytes) : Bytes :=
  let s := natBe 4 input.length ++ natBe 4 48 ++ input ++ [0x80#8]
  let ks := aesKeys (List.range 32)
  let temp := (List.range 3).flatMap fun i => bcc ks (blocks16 (natBe 16 (i * 2 ^ 96) ++ s))
  let k2 := aesKeys (octets (temp.take 32))
  let x1 := aesBlock k2 (temp.drop 32)
  let x2 := aesBlock k2 x1
  x1 ++ x2 ++ aesBlock k2 x2

/-- Instantiation from an entropy block, which supplies entropy input and nonce, and a personalisation string (R460). -/
@[irreducible] def drbgInst (b : BitVec 512) (pers : Bytes) : BitVec 512 :=
  drbgUpdate (List.replicate 32 0#8) 0 (blockDf (natLe 64 b.toNat ++ pers))

/-- Reseed from an entropy block (R461). -/
@[irreducible] def drbgReseed (w b : BitVec 512) : BitVec 512 := drbgUpdate (drbgKey w) (drbgV w) (blockDf (natLe 64 b.toNat))

/-- The output of a request of 512 bits, of which one of 256 bits returns the first half, and the working state after a request of
a number of bits (R461). -/
@[irreducible] def drbgOut (w : BitVec 512) : BitVec 512 :=
  BitVec.ofNat 512 (leNat (ctrBlocks (aesKeys (octets (drbgKey w))) (drbgV w) 4))
@[irreducible] def drbgNext (bits : Nat) (w : BitVec 512) : BitVec 512 :=
  drbgUpdate (drbgKey w) ((drbgV w + bits / 128) % 2 ^ 128) (List.replicate 48 0#8)

end Sys2Proof.Machine
end

