-- ==== Sys2Proof/Machine/Bits.lean ====
section
/-!
DEFINITION. Bit fields, vector lanes (R50), sign extension and the exact arithmetic helpers of the instructions.
-/
namespace Sys2Proof.Machine

/-- Bits `[lo + n - 1 : lo]` of a 32-bit word as a number. -/
def fld (w : W32) (lo n : Nat) : Nat := (w.toNat / 2 ^ lo) % 2 ^ n

/-- Bit `i` of a 32-bit word. -/
def bit32 (w : W32) (i : Nat) : Bool := w.getLsbD i

/-- A 32-bit word with bits `[lo + n - 1 : lo]` replaced. -/
def setFld (w : W32) (lo n v : Nat) : W32 :=
  let m : W32 := BitVec.ofNat 32 ((2 ^ n - 1) * 2 ^ lo)
  (w &&& ~~~m) ||| BitVec.ofNat 32 ((v % 2 ^ n) * 2 ^ lo)

/-- A number placed at bit `lo` of a 32-bit word. -/
def at32 (v lo : Nat) : W32 := BitVec.ofNat 32 (v * 2 ^ lo)

/-- 1 for true, 0 for false. -/
def b2n (b : Bool) : Nat := if b then 1 else 0

/-- The signed value of a `w`-bit lane. -/
def toSigned (w x : Nat) : Int := if x < 2 ^ (w - 1) then (x : Int) else (x : Int) - (2 ^ w : Nat)

/-- An integer narrowed to a `w`-bit lane. -/
def ofInt (w : Nat) (x : Int) : Nat := (x % ((2 ^ w : Nat) : Int)).toNat

/-- The residue of an integer in `[0, q)`. -/
def imod (x : Int) (q : Nat) : Nat := (x % (q : Int)).toNat

/-- Lane `i` of width `w` of a vector (R50). -/
def lane (w : Nat) (v : Wide) (i : Nat) : Nat := (v >>> (w * i)).toNat % 2 ^ w

/-- A vector with lane `i` of width `w` replaced. -/
def setLane (w : Nat) (v : Wide) (i x : Nat) : Wide :=
  let m : Wide := BitVec.ofNat 8192 (2 ^ w - 1) <<< (w * i)
  (v &&& ~~~m) ||| (BitVec.ofNat 8192 (x % 2 ^ w) <<< (w * i))

/-- Replaces the lanes `i < n` for which `act i` holds by `g i`; every other lane keeps its value (R113). -/
def mapLanes (w : Nat) (act : Nat → Bool) (g : Nat → Nat) (v : Wide) : Nat → Wide
  | 0 => v
  | n + 1 => let v' := mapLanes w act g v n
             if act n then setLane w v' n (g n) else v'

/-- A vector whose lane `i < n` is `g i`, other bits 0. -/
def buildLanes (w : Nat) (g : Nat → Nat) (n : Nat) : Wide := mapLanes w (fun _ => true) g 0#8192 n

/-- Lane `i` of width `w` of a long vector of `8 * n` bits given as bytes is read through `lane`; this packs bytes. -/
def wideOfBytes (b : Bytes) : Wide := buildLanes 8 (fun i => (b.getD i 0#8).toNat) (min b.length 1024)

/-- `n` bytes of a vector from byte `o` on. -/
def bytesOfWide (v : Wide) (o n : Nat) : Bytes := (List.range n).map fun i => BitVec.ofNat 8 (lane 8 v (o + i))

/-- The inverse of `2 ^ w` modulo an odd `q`: the `w`-th power of the inverse of 2, `(q + 1) / 2` (R134). -/
def invBeta (w q : Nat) : Nat := ((q + 1) / 2) ^ w % q

/-- The Montgomery product `x y inv(beta) mod q` (R134). -/
def montMul (w q x y : Nat) : Nat := x * y % q * invBeta w q % q

/-- The carry-less product of two polynomials over GF(2), `n` bits of the second taken (R139). -/
def clmul (a b : Nat) : Nat → Nat
  | 0 => 0
  | n + 1 => (clmul a b n) ^^^ (if b.testBit n then a <<< n else 0)

/-- Reduces a polynomial of degree below `m + n` modulo `f` of degree `m` (R139). -/
def gfRed (f m : Nat) : Nat → Nat → Nat
  | a, 0 => a
  | a, n + 1 => gfRed f m (if a.testBit (m + n) then a ^^^ (f <<< n) else a) n

/-- The product in GF(2)[X] modulo `f`, inputs reduced first (R139). -/
def gfMul (f m a b : Nat) : Nat :=
  gfRed f m (clmul (gfRed f m a 64) (gfRed f m b 64) 16) 16

/-- `a ^ (2 ^ m - 2)` modulo `f`: the product of `a ^ (2 ^ k)` for `k = 1 .. m - 1`; 0 gives 0 (R139). -/
def gfInv (f m : Nat) : Nat → Nat → Nat → Nat
  | 0, _, acc => acc
  | k + 1, p, acc => let p' := gfMul f m p p
                     gfInv f m k p' (gfMul f m acc p')

/-- The number of set bits among the low `n` bits. -/
def popcount (x : Nat) : Nat → Nat
  | 0 => 0
  | n + 1 => popcount x n + b2n (x.testBit n)

/-- The degree of a polynomial over GF(2) held in `n` bits; 0 for the zero polynomial. -/
def polyDeg (f : Nat) : Nat → Nat
  | 0 => 0
  | n + 1 => if f.testBit n then n else polyDeg f n

/-- The centred remainder of `r` modulo `a`, in `(-a/2, a/2]` (R142). -/
def centred (r a : Nat) : Int := let t := r % a; if t > a / 2 then (t : Int) - a else t

/-- `floor (x + 1/2)` of a quotient: `(2 n + d) / (2 d)` (R140). -/
def roundDiv (n d : Nat) : Nat := (2 * n + d) / (2 * d)

end Sys2Proof.Machine
end

