-- ==== Sys2Proof/Machine/Regs.lean ====
section
/-!
DEFINITION. The reset values of the registers that hold what is written to them, by PF BAR0 offset; the pages of the
virtual functions follow at 0x1_0000_0000 + instance × 0x4_0000 (R397).
-/
namespace Sys2Proof.Machine

/-- The page of an instance: its number, and the offset in it (R397). -/
def pageOf (a : Nat) : Option (Nat × Nat) :=
  if 0x40000 ≤ a ∧ a < 0x80000 then some (0, a - 0x40000)
  else if 0x100040000 ≤ a ∧ a < 0x104000000 then some ((a - 0x100000000) / 0x40000, a % 0x40000)
  else none

/-- The reset value of a stored register of a page: QP_CTRL alone differs from 0 (R399). -/
def pageReset (o : Nat) : W32 :=
  if 0x1000 ≤ o ∧ o < 0x1400 ∧ o % 0x40 = 0 then 0x01000404#32 else 0#32

/-- The reset value of a stored register of the PF's regions. -/
def regionReset (a : Nat) : W32 :=
  if 0x1000 ≤ a ∧ a < 0x2000 ∧ a % 0x10 = 8 then 0x20#32                         -- HIU_INST_LIMIT (R398)
  else if a = 0x100004 then 0x5000#32                                            -- SCH_CTRL (R241)
  else if a = 0x100010 then 0x802#32                                             -- SCH_FLOOR (R241)
  else if a = 0x100100 then 0x210#32                                             -- SCH_INST(0) (R241)
  else if 0x100100 < a ∧ a < 0x100500 ∧ a % 4 = 0 then 0x110#32                  -- SCH_INST(1..255)
  else if 0x200000 ≤ a ∧ a < 0x300000 ∧ a % 0x10000 = 0x200 then 0xF43#32        -- DE_VPWR (R102)
  else if 0x501000 ≤ a ∧ a < 0x502000 ∧ a % 0x10 = 0 then 0xFF#32                -- KT_INST_QUOTA (R449)
  else if a = 0x700004 then 0x1000#32                                            -- DGE_CTRL (R493)
  else if a = 0xB00004 then 0x0A#32                                              -- EVR_CTRL (R610)
  else if a = 0xC00008 then 6#32                                                 -- SDH_CTRL (R635)
  else if a = 0xD00004 then 7#32                                                 -- MGT_CTRL (R635)
  else 0#32

/-- The reset value of a stored register, by PF BAR0 offset. -/
def regReset (a : Nat) : W32 :=
  match pageOf a with
  | some p => pageReset p.2
  | none => regionReset a

end Sys2Proof.Machine
end

