-- ==== Sys2Proof/Machine/StateDigest.lean ====
section
/-!
DEFINITION. The state of the digest engine and of the DMA channels (chapter "Digest Engine and DMA Engine").
-/
namespace Sys2Proof.Machine

/-- The states of a context (R478). -/
inductive CtxSt
  | free | opened | run | done
deriving DecidableEq, Repr

/-- The work of an UPDATE or a FINISH (R478 to R483). -/
structure DgeJob where
  finish : Bool
  /-- The job came through the mailbox of the instance, which waits for its answer. -/
  viaMbx : Bool
  addr : Nat
  len : Nat
  /-- The valid bytes of the last word. -/
  last : Bytes
  cmp : Bool
  expect : Bytes
  outLen : Nat
  outAddr : Nat
  /-- Bytes of the buffer already absorbed (R486). -/
  pos : Nat
deriving DecidableEq, Repr

/-- A context (R478 to R488). -/
structure DgeCtx where
  st : CtxSt
  alg : Nat
  declen : Nat
  rcvd : Nat
  trunc : Bool
  result : Nat
  /-- The bytes the message state stands for: at most the declared length. -/
  msg : Bytes
  /-- Saves so far; the state lies in DRAM while `saved`. -/
  saves : Nat
  saved : Bool
  out : Bytes
  isMatch : BitVec 8
  matchN : BitVec 8
  job : Option DgeJob
deriving DecidableEq, Repr

/-- A free context (R493). -/
def DgeCtx.reset : DgeCtx where
  st := .free
  alg := 0
  declen := 0
  rcvd := 0
  trunc := false
  result := 0
  msg := []
  saves := 0
  saved := false
  out := []
  isMatch := 0#8
  matchN := 0#8
  job := none

/-- The digest engine (R485 to R488). -/
structure Dge where
  ctxs : Map DgeCtx
  /-- Units that run a job, the longest holder first: unit and context key (8 × instance + context). -/
  units : List (Nat × Nat)
  wait : List Nat
  /-- The unit that switches at its next block boundary because a job joined the empty wait list (R486). -/
  due : Option Nat
  cntBlocks : W32
  cntSwitch : W32
  cntMismatch : W32
deriving DecidableEq, Repr

/-- The digest engine after reset (R493). -/
def Dge.reset : Dge where
  ctxs := []
  units := []
  wait := []
  due := none
  cntBlocks := 0#32
  cntSwitch := 0#32
  cntMismatch := 0#32

/-- The states of a channel (R500). -/
inductive ChSt
  | idle | run | pausing | paused | done | halted
deriving DecidableEq, Repr

/-- A channel (R500 to R506). -/
structure DmaCh where
  st : ChSt
  cause : Nat
  dir : Bool
  prog : Nat
  err : Nat
  pause : Bool
deriving DecidableEq, Repr

/-- A channel after reset (R506). -/
def DmaCh.reset : DmaCh where
  st := .idle
  cause := 0
  dir := false
  prog := 0
  err := 0
  pause := false

/-- The DMA engine. -/
structure Dma where
  chans : Map DmaCh
  /-- DMA_CTL_PARITY has been raised: no channel accepts GO (R507). -/
  dead : Bool
  cntDone : W32
  cntHalt : W32
deriving DecidableEq, Repr

/-- The DMA engine after reset. -/
def Dma.reset : Dma where
  chans := []
  dead := false
  cntDone := 0#32
  cntHalt := 0#32

end Sys2Proof.Machine
end

