-- ==== Sys2Proof/Machine/StateEngine.lean ====
section
/-!
DEFINITION. The state of the engines, of the clusters around them and of the score store (chapters "The Dymeik
Engine and its Cluster" and "Static Scheduling").
-/
namespace Sys2Proof.Machine

/-- A reservation entry of a score (R196). -/
structure Resv where
  kind : Nat
  place : Nat
  offset : Nat
  length : Nat
  winStart : Nat
  winEnd : Nat
deriving DecidableEq, Repr

/-- A share-buffer entry of a score (R155, R198). -/
structure ShBuf where
  base : Nat
  planeLen : Nat
  stride : Nat
  layout : Nat
deriving DecidableEq, Repr

/-- A variant entry of a score (R195), with its reservation entries. -/
structure Variant where
  opcode : Nat
  vflags : Nat
  entry : Nat
  pealLen : Nat
  attEntry : Nat
  maxAttempts : Nat
  attLen : Nat
  resOff : Nat
  inMax : Nat
  outMax : Nat
  resvs : List Resv
deriving DecidableEq, Repr

/-- A verified score in the store (R193 to R202). -/
structure Score where
  cls : Nat
  flags : Nat
  scoreId : Nat
  version : Nat
  codeWords : Nat
  const4k : Nat
  stagger : Nat
  variants : List Variant
  shbufs : List ShBuf
  code : Bytes
  consts : Bytes
  any : Bool
  owner : Nat
  /-- The reservation list of the image (R193, R196). -/
  resvs : List Resv
deriving DecidableEq, Repr

/-- The causes of an engine exception, in code order (R88). -/
inductive Cause
  | illegalInstr | imemRange | addrRange | addrAlign | constWrite | csmPhase | keyportSlot
  | vgated | timingHazard | parity | kcuCheck | pealOverrun | breakpoint | mrgHealth
deriving DecidableEq, Repr

/-- Why an engine left its peal (R233). -/
inductive LeaveCause
  | exc (c : Cause)
  | clusterFatal
  | lateWindow
  | debugHalt
  | alarm
deriving DecidableEq, Repr

/-- A destination or source of an instruction for the timing contract (R175). -/
inductive Loc
  | s (n : Nat) | v (n : Nat) | p (n : Nat) | vl | q (n : Nat) | g (n : Nat) | kcu (n : Nat)
deriving DecidableEq, Repr

/-- The resources of the timing table, the scalar core excepted (R176). -/
inductive Res
  | lsp | vxu | kcu | mrg | kpt
deriving DecidableEq, Repr

/-- An issued word that the timing contract still remembers (R175). -/
structure InFlight where
  /-- Destinations, each with the ec at which it is ready. -/
  writes : List (Loc × Nat)
  reads : List Loc
  /-- The last ec at which a source may be read. -/
  readEnd : Nat
  /-- Resources, each with the first ec at which it is free again. -/
  holds : List (Res × Nat)
deriving DecidableEq, Repr

/-- A loop-stack entry (R122). -/
structure LoopEntry where
  first : Nat
  last : Nat
  count : Nat
deriving DecidableEq, Repr

/-- A programmable modulus slot: the modulus and its width code (R132). -/
structure ModSlot where
  q : Nat
  w : Nat
deriving DecidableEq, Repr

/-- A byte of an engine's storage whose parity bit is wrong (R579, R581). -/
inductive ParityPlace
  | imem (w : Nat) | sreg (n : Nat) | preg (n : Nat) | vreg (n : Nat) | dmem (a : Nat)
deriving DecidableEq, Repr

/-- What an engine is doing (R89, R96, R107, R126). -/
inductive EngMode
  /-- Not in a peal. -/
  | idle
  /-- Issuing the words of its peal. -/
  | run
  /-- END issued; idles until the scrub beat. -/
  | ended
  /-- Left its peal; issues nothing further. -/
  | left
  /-- Stopped by the debugger. -/
  | halted
  /-- Resumed by the debugger, detached from the schedule. -/
  | resumed
  /-- Stepping one word for the debugger, detached from the schedule. -/
  | stepping
deriving DecidableEq, Repr

/-- The peal an engine runs (R186, R221). -/
structure Peal where
  call : Nat
  /-- The local beat of the start beat. -/
  start : Nat
  len : Nat
  attempt : Bool
  frame : Nat
  var : Variant
  /-- The scrub beat has passed (R61). -/
  scrubbed : Bool
deriving DecidableEq, Repr

/-- What the score loader left on an engine (R203). -/
structure Resident where
  index : Nat
  codeWords : Nat
  constLen : Nat
  vec : Bool
  cls : Nat
  shbufs : List ShBuf
  /-- The score's reservation list (R64). -/
  resvs : List Resv
deriving DecidableEq, Repr

/-- A load or emptying that waits on or runs in an engine (R203, R234). -/
structure EngLoad where
  /-- Store entry, or none to empty the engine. -/
  index : Option Nat
deriving DecidableEq, Repr

/-- One Dymeik engine (R47 to R100). -/
structure Engine where
  sregs : Map W64
  vregs : Map VReg
  pregs : Map PReg
  vl : Nat
  pc : Nat
  pealEc : Nat
  callBase : Nat
  outBase : Nat
  imem : Map W64
  dmem : Map Byte
  kcu : Map KSlot
  qslots : Map (Option ModSlot)
  gslots : Map (Option Nat)
  loops : List LoopEntry
  rets : List Nat
  flight : List InFlight
  seed : BitVec 256
  nextSeed : Option (BitVec 256)
  carry : Nat
  fresh : Bool
  mrgExh : Bool
  /-- VFLAGS.MASK of the variant whose peal runs (R174). -/
  maskUse : Bool
  mode : EngMode
  leave : Option LeaveCause
  /-- The status a refused KLD fixes for the release beat (R27, R73). -/
  keyDenied : Option Nat
  eri : Nat
  cause : Nat
  resident : Option Resident
  loading : Option EngLoad
  peal : Option Peal
  dbgOn : Bool
  /-- The frame the next call placed here takes (R189). -/
  nextFrame : Nat
  /-- Frames held (R189): bit f for frame f. -/
  frames : BitVec 2
  /-- A reload is due before the next call, after an IMEM parity error (R234). -/
  needReload : Bool
  badParity : List ParityPlace
  /-- The round at whose end the Keccak lane parity fails (R170). -/
  kcuUpset : Option Nat
  /-- END has issued since the last start beat or scrub: the engine issues nothing further, a debugger's RESUME and STEP
  included (R126). -/
  endSeen : Bool
deriving DecidableEq, Repr

/-- An engine after reset: every register and memory zero, no score, no seed delivered, the current mask seed 0 (DESIGN
CHOICE, log entry 98). -/
def Engine.reset : Engine where
  sregs := []
  vregs := []
  pregs := []
  vl := 512
  pc := 0
  pealEc := 0
  callBase := 0
  outBase := 0
  imem := []
  dmem := []
  kcu := []
  qslots := []
  gslots := []
  loops := []
  rets := []
  flight := []
  seed := 0#256
  nextSeed := none
  carry := 0
  fresh := false
  mrgExh := false
  maskUse := false
  mode := .idle
  leave := none
  keyDenied := none
  eri := 0
  cause := 0
  resident := none
  loading := none
  peal := none
  dbgOn := false
  nextFrame := 0
  frames := 0#2
  needReload := false
  badParity := []
  kcuUpset := none
  endSeen := false

/-- A CSM store that lands at the end of its local beat (R179). -/
structure CsmStore where
  beat : Nat
  addr : Nat
  val : Byte
deriving DecidableEq, Repr

/-- The blocks of one key of one call in the key-port buffer (R68, R71, R72). -/
structure KpKey where
  call : Nat
  engine : Nat
  /-- True for an output key of the running peal. -/
  out : Bool
  num : Nat
  len : Nat
  share0 : Bytes
  share1 : Bytes
  /-- The score classes the entry permits: bit 0 LIBRARY, bit 1 USER (R27). -/
  masters : Nat
  exportable : Bool
  orphan : Bool
  /-- A byte of its blocks has a wrong parity bit (R579, R581). -/
  bad : Bool
deriving DecidableEq, Repr

/-- The vector-power states of a cluster (R83). -/
inductive VPwr
  | off | waking | on | gating
deriving DecidableEq, Repr

/-- One cluster (R101 to R107). -/
structure Cluster where
  gRef : Nat
  bRef : Nat
  /-- Power-cap step: 0 is 1.25 GHz, 1 is 1.0 GHz, 2 is 0.75 GHz (R102). -/
  capStep : Nat
  vpwr : VPwr
  /-- The global beat at which the wake count or the gating beats end. -/
  vpwrDue : Nat
  /-- The global beat since which no peal declaring vector use has been in progress or admitted (R83). -/
  idleSince : Nat
  /-- A wake request that waits (R39, R83). -/
  wakeReq : Bool
  wakes : BitVec 16
  held : BitVec 16
  csm : Map Byte
  csmPend : List CsmStore
  /-- CSM offsets of bytes whose parity bit is wrong (R579, R581). -/
  csmBad : List Nat
  kpb : List KpKey
  selftest : Nat
  fatal : Bool
  oos : Bool
  /-- The DE_DBG_CTRL.EN bit (R94). -/
  dbgEn : Bool
  dbgHaltExc : Bool
  dbgSel : Nat
  dbgAddr : Nat
  /-- Releases waiting for the completion writer (R226): call keys, oldest first. -/
  fifo : List Nat
deriving DecidableEq, Repr

/-- A cluster after reset (R102). -/
def Cluster.reset : Cluster where
  gRef := 0
  bRef := 0
  capStep := 0
  vpwr := .off
  vpwrDue := 0
  idleSince := 0
  wakeReq := false
  wakes := 0#16
  held := 0#16
  csm := []
  csmPend := []
  csmBad := []
  kpb := []
  selftest := 0xFF
  fatal := false
  oos := false
  dbgEn := false
  dbgHaltExc := false
  dbgSel := 0
  dbgAddr := 0
  fifo := []

end Sys2Proof.Machine
end

