-- ==== Sys2Proof/Machine/StateEnt.lean ====
section
/-!
DEFINITION. The state of the entropy subsystem (chapter "Entropy Sources and Random Bit Generation").
-/
namespace Sys2Proof.Machine

/-- The states of a DRBG instance (R464). -/
inductive DrbgSt
  | uninst | serving | reseeding | stopped
deriving DecidableEq, Repr

/-- One DRBG instance; its working state is what CTR_DRBG keeps between requests. -/
structure Drbg where
  st : DrbgSt
  work : BitVec 512
  /-- Requests since instantiation or reseed (R461). -/
  reqs : Nat
deriving DecidableEq, Repr

/-- An instance after reset (R464). -/
def Drbg.reset : Drbg where
  st := .uninst
  work := 0#512
  reqs := 0

/-- The states of a noise source (R454). -/
inductive SrcSt
  | off | startup | pass | failed | disabled
deriving DecidableEq, Repr

/-- One noise source (R453, R454). -/
structure Source where
  st : SrcSt
  fails : Nat
  /-- Last failure: 0 none, 1 RCT, 2 APT, 3 startup (R475). -/
  cause : Nat
  aptMax : Nat
  /-- The global beat at which the state was entered. -/
  since : Nat
  /-- Credit toward the next block, in units of 1/125 of a sample of 0.2 bits: one global beat brings 32 (R451, R456). -/
  credit : Nat
deriving DecidableEq, Repr

/-- A source after reset (R475). -/
def Source.reset : Source where
  st := .off
  fails := 0
  cause := 0
  aptMax := 0
  since := 0
  credit := 0

/-- The modes of ENT (R471). -/
inductive EntMode
  | startup | full | degraded | halted
deriving DecidableEq, Repr

/-- The entropy subsystem. -/
structure Ent where
  started : Bool
  mode : EntMode
  katOk : Bool
  katFail : Bool
  sources : Map Source
  /-- The global beat up to which credit has been counted. -/
  credAt : Nat
  /-- The compressor's register, as last copied to the output buffer (R456). -/
  comp : BitVec 512
  block : Option (BitVec 512)
  drbgs : Map Drbg
  /-- Requests of consumers without a row of their own that no instance could serve yet (R463). -/
  waiting : Nat
  /-- The Sealing Unit's IV reserve (R468). -/
  ivs : List (BitVec 96)
  /-- The software port's buffers: words left, for the Manager and the Supervisor (R469). -/
  swBuf : List W32
  supBuf : List W32
  reseeds : W32
  requests : W32
  srcFails : W32
  denied : W32
deriving DecidableEq, Repr

/-- ENT after reset (IV reserve: log entry 5). -/
def Ent.reset : Ent where
  started := false
  mode := .startup
  katOk := false
  katFail := false
  sources := []
  credAt := 0
  comp := 0#512
  block := none
  drbgs := []
  waiting := 0
  ivs := []
  swBuf := []
  supBuf := []
  reseeds := 0#32
  requests := 0#32
  srcFails := 0#32
  denied := 0#32

end Sys2Proof.Machine
end

