-- ==== Sys2Proof/Machine/StateFault.lean ====
section
/-!
DEFINITION. The state of fault reporting and of the event recorder (chapter "Fault Reporting and the Event Recorder").
-/
namespace Sys2Proof.Machine

/-- The fault registers of one block (R585). -/
structure FaultRegs where
  fstat : W32
  fen : W32
  fsyn0 : W32
  fsyn1 : W32
  fmerge : Nat
deriving DecidableEq, Repr

/-- An occurrence that waits for the recorder (R601), or any other record to be written (R598). -/
structure Occurrence where
  type : Nat
  /-- FLAGS of the record header: class and FORCED (R596). -/
  flags : Nat
  body : Bytes
  rep : Nat
  opsec : Nat
deriving DecidableEq, Repr

/-- A record that stands in the ring (R596, R602, R603). -/
structure RingRec where
  off : Nat
  len : Nat
  seq : Nat
  type : Nat
  /-- Written or changed since the previous checkpoint. -/
  dirty : Bool
  /-- Changed while a checkpoint that holds it is in progress (R607). -/
  again : Bool
deriving DecidableEq, Repr

/-- The event recorder (R596 to R610). The last-gasp file, OPSEC and PCYC live in the always-on domain. -/
structure Evr where
  routes : Map W32
  waiting : List Occurrence
  ring : Map Byte
  head : Nat
  tail : Nat
  recs : List RingRec
  seq : Nat
  ringOk : Bool
  norOk : Bool
  restored : Bool
  ckptBusy : Bool
  /-- A checkpoint has been asked for and has not started (R603). -/
  ckptReq : Bool
  /-- The global beat of the previous checkpoint. -/
  lastCkpt : Nat
  /-- Sequence number of the newest record the running checkpoint appends. -/
  ckptUpTo : Nat
  lg : Map Byte
  lgUsed : Nat
  lgDrop : Nat
  opsec : Nat
  /-- Part of a second already counted, in global beats (R599). -/
  subsec : Nat
  pcyc : Nat
  /-- A power-on whose cycle is not counted yet (R599). -/
  cycleDue : Bool
  /-- Sources routed to RESET whose reset waits (R595): source number and latest global beat. -/
  resetWait : List (Nat × Nat)
deriving DecidableEq, Repr

/-- The event recorder after reset, with the always-on values of a device never powered (R599, R606). -/
def Evr.reset : Evr where
  routes := []
  waiting := []
  ring := []
  head := 0
  tail := 0
  recs := []
  seq := 0
  ringOk := true
  norOk := true
  restored := false
  ckptBusy := false
  ckptReq := false
  lastCkpt := 0
  ckptUpTo := 0
  lg := []
  lgUsed := 0
  lgDrop := 0
  opsec := 0
  subsec := 0
  pcyc := 0
  cycleDue := false
  resetWait := []

end Sys2Proof.Machine
end

