-- ==== Sys2Proof/Machine/StateHost.lean ====
section
/-!
DEFINITION. The state of the Host Interface Unit: instances, queues, mailboxes, MSI-X and the link (chapter "Host
Interface, Instances and Work Queues").
-/
namespace Sys2Proof.Machine

/-- The states of an instance (R384). -/
inductive InstState
  | active | quiescing | quiesced | frozen | saved | inFlr
deriving DecidableEq, Repr

/-- The states of a queue (R374). -/
inductive QState
  | disabled | running | stalled | halted | draining
deriving DecidableEq, Repr

/-- A completion (R365). -/
structure Cpl where
  index : BitVec 16
  status : Nat
  opcode : Nat
  /-- CFLAGS (R365). -/
  cflags : Nat
  outBytes : Nat
  okey0 : Nat
  okey1 : Nat
  count : Nat
  /-- The descriptor carries COMPLETE_HERE (R368). -/
  here : Bool
  /-- The completion uses the queue's own place (R668). -/
  ownPlace : Bool
  /-- Engines and frames held until the entry is written (R189). -/
  frees : List (Nat × Nat)
deriving DecidableEq, Repr

/-- One queue pair (R349 to R376). -/
structure Queue where
  st : QState
  haltCause : Nat
  cfgErr : Bool
  sqTail : BitVec 16
  sqHead : BitVec 16
  cqTail : BitVec 16
  cqHead : BitVec 16
  /-- Doorbells recorded while the instance is FROZEN (R376). -/
  recSq : Option (BitVec 16)
  recCq : Option (BitVec 16)
  /-- Refused doorbells recorded while the instance is FROZEN, oldest first: completion side, value (R376). -/
  recBad : List (Bool × BitVec 16)
  /-- The covered entry at SQ_HEAD was read with a mark that does not match, and no doorbell has come since (R354, R359). -/
  waits : Bool
  /-- Entries read ahead of their doorbell whose marks match, not yet taken (R358, R359). -/
  ahead : List (BitVec 16 × BitVec 512)
  /-- Entries beyond SQ_TAIL that the HIU has looked at since the last doorbell (R358). -/
  aheadAt : Nat
  /-- Descriptors taken and not yet ready, oldest first. -/
  notReady : List (BitVec 16)
  /-- COMPLETE_HERE completions of BATCH mode that wait for earlier descriptors (R369). -/
  hereWait : List Cpl
  /-- Ready completions not yet written, in the order of R367. -/
  ready : List Cpl
  /-- Index of the first descriptor the next batch entry counts (R369). -/
  batchFrom : BitVec 16
  /-- Descriptors since the last batch entry that completed with a status other than OK. -/
  batchErr : List (BitVec 16)
  cntDone : W32
  cntDiscard : W32
deriving DecidableEq, Repr

/-- A queue after reset (R374, R400). -/
def Queue.reset : Queue where
  st := .disabled
  haltCause := 0
  cfgErr := false
  sqTail := 0#16
  sqHead := 0#16
  cqTail := 0#16
  cqHead := 0#16
  recSq := none
  recCq := none
  recBad := []
  waits := false
  ahead := []
  aheadAt := 0
  notReady := []
  hereWait := []
  ready := []
  batchFrom := 0#16
  batchErr := []
  cntDone := 0#32
  cntDiscard := 0#32

/-- One change of HIU_INST_CTRL, or a write of the whole register (R384, R667). -/
inductive CtrlChange
  | quiesce (on : Bool) | freeze (on : Bool) | reset | word (w : W32)
deriving DecidableEq, Repr

/-- The mailbox of an instance (R379 to R383). -/
structure Mailbox where
  inb : Map Byte
  out : Map Byte
  busy : Bool
  /-- The Supervisor serves the message in service. -/
  taken : Bool
  outValid : Bool
  overrun : Bool
  seq : Nat
  /-- The global beat at which the message in service was sent (R381). -/
  sentAt : Nat
  /-- The Supervisor's answer, ready to land: STATUS and payload. -/
  answer : Option (Nat × Bytes)
deriving DecidableEq, Repr

/-- A mailbox after reset (R400). -/
def Mailbox.reset : Mailbox where
  inb := []
  out := []
  busy := false
  taken := false
  outValid := false
  overrun := false
  seq := 0
  sentAt := 0
  answer := none

/-- One instance (R384 to R388). -/
structure Instance where
  st : InstState
  quiesce : Bool
  freeze : Bool
  resetRefused : Bool
  /-- Changes of HIU_INST_CTRL held while a Function Level Reset runs, oldest first (R384, R667). -/
  heldCtrl : List CtrlChange
  /-- A hamper has been restored into the instance and it has not left FROZEN since (R394). -/
  restored : Bool
  /-- The state a Function Level Reset left (R384). -/
  flrFrom : InstState
  /-- Calls admitted in the running budget period (R348). -/
  budgetUsed : Nat
  mbx : Mailbox
  queues : Map Queue
deriving DecidableEq, Repr

/-- An instance after reset (R398). -/
def Instance.reset : Instance where
  st := .active
  quiesce := false
  freeze := false
  resetRefused := false
  heldCtrl := []
  restored := false
  flrFrom := .active
  budgetUsed := 0
  mbx := Mailbox.reset
  queues := []

/-- One MSI-X table entry with its pending bit (R378). -/
structure MsixEntry where
  addrLo : W32
  addrHi : W32
  data : W32
  masked : Bool
  pend : Bool
deriving DecidableEq, Repr

/-- An MSI-X entry after reset: masked, as PCI Express lays down (log entry 9). -/
def MsixEntry.reset : MsixEntry where
  addrLo := 0#32
  addrHi := 0#32
  data := 0#32
  masked := true
  pend := false

/-- The link, the SR-IOV capability and the registers of configuration space as the HIU sees them (R339, R340, R398; the
layout of configuration space is PCI Express's: log entry 113). -/
structure Link where
  up : Bool
  flit : Bool
  speed : Nat
  width : Nat
  numVf : Nat
  vfEnable : Bool
  /-- Max Payload Size and Max Read Request Size in bytes (R339). -/
  mps : Nat
  mrrs : Nat
  /-- The PF is in D3hot, else in D0 (R339). -/
  d3hot : Bool
  /-- The status registers of Advanced Error Reporting: correctable and uncorrectable errors (R339). -/
  aerCor : W32
  aerUnc : W32
deriving DecidableEq, Repr

/-- The link after reset (R398; log entry 113). -/
def Link.reset : Link where
  up := false
  flit := false
  speed := 0
  width := 0
  numVf := 0
  vfEnable := false
  mps := 128
  mrrs := 512
  d3hot := false
  aerCor := 0#32
  aerUnc := 0#32

end Sys2Proof.Machine
end

