-- ==== Sys2Proof/Machine/StateKeys.lean ====
section
/-!
DEFINITION. The state of the key subsystem and of the battery-backed RAM (chapter "Key Hierarchy, Key Table and Vault").
-/
namespace Sys2Proof.Machine

/-- The states of a key-table slot (R410, R416). -/
inductive SlotSt
  | free | reserved | valid | lost | retired
deriving DecidableEq, Repr

/-- An entry of the key table (R410). -/
structure KeySlot where
  st : SlotSt
  /-- LOC: 0 inline, 1 DRAM, 2 host. -/
  loc : Nat
  type : Nat
  owner : Nat
  set : Nat
  gen : Nat
  depth : Nat
  parent : Nat
  attr : W32
  klen : Nat
  seq : Nat
  rctr : Nat
  bleft : Nat
  next : Nat
  fbytes : Nat
  nbytes : Nat
  /-- Inline key, 32 bytes, masked (R417). -/
  body : Bytes
  /-- Vault key: record address and length. -/
  addr : Nat
  rlen : Nat
  /-- The tag of the reservation counter kept beside an entry that carries one (R445). -/
  treeTag : Nat
  /-- Height of the tree of a tree entry or tree job, as its type codes give (R270). -/
  height : Nat
  /-- For a tree entry or job: signing opcode its tree serves, hash bytes n or m, length of the stored chain; for a
  McEliece job: the set number; for a continuation: the number of its part; for a curve record: the bits of its field; for an
  RSA public key: e (R267 to R276, R306, R307). -/
  tset : Nat
  tn : Nat
  chain : Nat
  /-- The share already read by the Supervisor in this access window (R29). -/
  token : Option Nat
  /-- The parity of BODY fails (R432). -/
  bad : Bool
deriving DecidableEq, Repr

/-- A slot after device reset: an instance root below 256, else FREE, GEN 1 (R407, R408). -/
def dfltSlot (i : Nat) : KeySlot where
  st := if i < 256 then .valid else .free
  loc := 0
  type := 0
  owner := if i < 256 then i else 0
  set := 0
  gen := 1
  depth := 0
  parent := 0
  attr := 0#32
  klen := 0
  seq := 0
  rctr := 0xFFFF
  bleft := 0
  next := 0
  fbytes := 0
  nbytes := 0
  body := []
  addr := 0
  rlen := 0
  treeTag := 0
  height := 0
  tset := 0
  tn := 0
  chain := 0
  token := none
  bad := false

/-- The key subsystem (R403 to R450). -/
structure Keys where
  slots : Map KeySlot
  sweepSeed : BitVec 256
  newSeed : BitVec 256
  /-- The slot the running pass reaches next; none when no pass runs. -/
  sweepAt : Option Nat
  /-- The global beat at which the next pass is due (R419). -/
  sweepDue : Nat
  passes : Nat
  skips : Nat
  /-- The global beat at which the BBRAM roots are next re-masked (R405). -/
  remaskDue : Nat
  /-- Sequence counter of sealed records (R430). -/
  seqCtr : Nat
  bootId : BitVec 64
  /-- Deliveries since the key table's mask generator was reseeded (R418). -/
  deliveries : Nat
  /-- Keys that the Sealing Unit has unsealed for a delivery: the free values of their shares (R418; the model's own). -/
  unseals : Nat
  maskSeed : BitVec 256
  cntDestroy : W32
  cntReclaim : W32
  cntExport : W32
  cntImport : W32
  supData : Bytes
  /-- BBRAM found valid at the last power-up (R449). -/
  bbramOk : Bool
deriving DecidableEq, Repr

/-- The key subsystem after device reset (R408, R430, R449; sweep seed and BOOT_ID: log entry 5). -/
def Keys.reset : Keys where
  slots := []
  sweepSeed := 0#256
  newSeed := 0#256
  sweepAt := none
  sweepDue := 0
  passes := 0
  skips := 0
  remaskDue := 0
  seqCtr := 1
  bootId := 0#64
  deliveries := 0
  unseals := 0
  maskSeed := 0#256
  cntDestroy := 0#32
  cntReclaim := 0#32
  cntExport := 0#32
  cntImport := 0#32
  supData := []
  bbramOk := false

/-- A stateful reservation counter (R433, R445). -/
structure ResCounter where
  /-- Held by a call that has not ended (R445). -/
  reserved : Bool
  bound : Bool
  limit : Nat
  tag : Nat
deriving DecidableEq, Repr

/-- A counter that is free. -/
def ResCounter.reset : ResCounter where
  reserved := false
  bound := false
  limit := 0
  tag := 0

/-- A root held as two shares (R403). -/
structure Root where
  share0 : BitVec 256
  share1 : BitVec 256
deriving DecidableEq, Repr

/-- A hamper nonce bound to an instance (R389). -/
structure Nonce where
  inst : Nat
  val : Bytes
deriving DecidableEq, Repr

/-- The battery-backed RAM (R433, R403). -/
structure Bbram where
  valid : Bool
  krOwn : Option Root
  krRma : Option Root
  epochs : Map Nat
  importCtr : Nat
  counters : Map ResCounter
  nonces : List Nonce
  /-- An advance of ERA was due when none remained (R438). -/
  eraSpent : Bool
deriving DecidableEq, Repr

/-- A BBRAM that holds nothing (log entry 6). -/
def Bbram.reset : Bbram where
  valid := false
  krOwn := none
  krRma := none
  epochs := []
  importCtr := 0
  counters := []
  nonces := []
  eraSpent := false

end Sys2Proof.Machine
end

