-- ==== Sys2Proof/Machine/StateLife.lean ====
section
/-!
DEFINITION. The state of the fuses, of the life-cycle controller and of bring-up (chapters "Life Cycle, Fuses and Debug
Authorisation" and "Power-Up, Reset and Bring-Up").
-/
namespace Sys2Proof.Machine

/-- The life-cycle states (R509). -/
inductive LcState
  | raw | test | mfg | owned | rma | scrap
deriving DecidableEq, Repr

/-- The fuses (R522); a thermometer is held as its number of set bits. -/
structure Otp where
  lcA : BitVec 64
  lcB : BitVec 64
  lcC : BitVec 64
  serial : BitVec 64
  krMfg : Option Root
  /-- INSTANCE_CONFIG, three copies (R523). -/
  cfg0 : BitVec 8
  cfg1 : BitVec 8
  cfg2 : BitVec 8
  kaDigest : BitVec 256
  ownerDigest : BitVec 256
  /-- POWER_LIMIT, three copies. -/
  pow0 : BitVec 8
  pow1 : BitVec 8
  pow2 : BitVec 8
  /-- DEBUG_KILL, 24 bits. -/
  kill : BitVec 24
  fwMin : Nat
  patchMin : Nat
  era : Nat
  evidence : Nat
deriving DecidableEq, Repr

/-- A part whose fuses are all 0 (log entry 6). -/
def Otp.reset : Otp where
  lcA := 0#64
  lcB := 0#64
  lcC := 0#64
  serial := 0#64
  krMfg := none
  cfg0 := 0#8
  cfg1 := 0#8
  cfg2 := 0#8
  kaDigest := 0#256
  ownerDigest := 0#256
  pow0 := 0#8
  pow1 := 0#8
  pow2 := 0#8
  kill := 0#24
  fwMin := 0
  patchMin := 0
  era := 0
  evidence := 0

/-- A transition in progress (R515, R516). -/
structure Trans where
  target : Nat
  /-- The codeword to be programmed. -/
  code : BitVec 64
  /-- Bits that the target adds to the state in force. -/
  n : Nat
  /-- LCC_XSTAT.PHASE: 2 root, 3 copy A, 5 copy B, 6 copy C, 7 readback. -/
  phase : Nat
  /-- The global beat at which the phase began. -/
  since : Nat
  /-- The request came through the mailbox of instance 0, and its answer is still owed. -/
  viaMbx : Bool
  /-- Package fields (R513), or the serial number of the JTAG command. -/
  config : BitVec 8
  power : BitVec 8
  kaDigest : BitVec 256
  ownerDigest : BitVec 256
  serial : BitVec 64
deriving DecidableEq, Repr

/-- The life-cycle controller (R508 to R530). -/
structure Lcc where
  nonce : Option Bytes
  trans : Option Trans
  target : Nat
  result : Nat
  /-- Enables set by DEBUG_UNLOCK: bit 0 JTAG, bit 1 readback, bit 2 Supervisor debug (R525). -/
  granted : BitVec 3
  /-- LCC_VHOLD.RESERVE_US. -/
  vhold : Nat
  cntTrans : W32
  cntDeny : W32
  /-- The CAUSE of a reset that waits for a transition (R518). -/
  waitReset : Option Nat
  /-- LCC_STAT.CONFIG, INVALID, A_OK B_OK C_OK (bits 2, 1, 0) and PARTIAL, as decoded at the last OTP load (R529). -/
  config : Nat
  invalid : Bool
  oks : BitVec 3
  part : Bool
  /-- The OTP has been loaded since the last reset. -/
  decoded : Bool
deriving DecidableEq, Repr

/-- The life-cycle controller after reset (R529). -/
def Lcc.reset : Lcc where
  nonce := none
  trans := none
  target := 0
  result := 0
  granted := 0#3
  vhold := 0
  cntTrans := 0#32
  cntDeny := 0#32
  waitReset := none
  config := 0
  invalid := false
  oks := 0#3
  part := false
  decoded := false

/-- Bring-up and the Supervisor status (R531 to R549). -/
structure Boot where
  /-- Main rails up. -/
  power : Bool
  /-- PERST_N asserted. -/
  perst : Bool
  /-- SUP_BOOT_STAT.PHASE. -/
  phase : Nat
  ready : Bool
  halted : Bool
  haltCode : Nat
  slot : Nat
  fwVer : W32
  svn : Nat
  /-- The image in use, between selection and its signature check (R538). -/
  image : Bytes
  aValid : Bool
  bValid : Bool
  aSvn : Nat
  bSvn : Nat
  fallback : Bool
  bbramLost : Bool
  evidenceMoved : Bool
  timeUs : W32
  /-- The global beat at which bring-up started. -/
  startG : Nat
  /-- The global beat from which the running watchdog counts; intervals of R539 move it on. -/
  wdFrom : Nat
  sramDone : Bool
  dramDone : Bool
  evrDone : Bool
  /-- The known-answer tests have passed, and the MAUs are in service. -/
  katDone : Bool
  /-- SVN of the loaded patch package (R541). -/
  patchSvn : Nat
  /-- PWR_LIM as sampled (R645). -/
  strap : Nat
  /-- Slot fail counts of the always-on domain (R539). -/
  failsA : Nat
  failsB : Nat
  /-- SUP_RESET_CAUSE.CAUSE. -/
  cause : Nat
  /-- Waits for a first DRBG output to draw BOOT_ID from (R543). -/
  bootIdDue : Bool
  /-- The global beat since which bring-up waits for a root (R520, R539). -/
  rootWait : Option Nat
deriving DecidableEq, Repr

/-- Bring-up right after a power-on, PERST_N still asserted (R531, R542; log entry 8). -/
def Boot.reset : Boot where
  power := true
  perst := true
  phase := 0
  ready := false
  halted := false
  haltCode := 0
  slot := 0
  fwVer := 0#32
  svn := 0
  image := []
  aValid := false
  bValid := false
  aSvn := 0
  bSvn := 0
  fallback := false
  bbramLost := false
  evidenceMoved := false
  timeUs := 0#32
  startG := 0
  wdFrom := 0
  sramDone := false
  dramDone := false
  evrDone := false
  katDone := false
  patchSvn := 0
  strap := 0
  failsA := 0
  failsB := 0
  cause := 1
  bootIdDue := false
  rootWait := none

end Sys2Proof.Machine
end

