-- ==== Sys2Proof/Machine/StateMau.lean ====
section
/-!
DEFINITION. The state of the modular arithmetic units (chapter "Modular Arithmetic Units").
-/
namespace Sys2Proof.Machine

/-- A key in a key-store half, as two Boolean shares (R297). -/
structure MauKey where
  num : Nat
  share0 : Bytes
  share1 : Bytes
deriving DecidableEq, Repr

/-- One half of a unit: operand memory, key store and private scratch (R288). -/
structure MauHalf where
  /-- Operand memory: 16 KiB, slot k at 2,048 k. -/
  mem : Map Byte
  /-- After a macro operation the bytes not listed in `mem` are free values, numbered from here (R292). -/
  junk : Option Nat
  keys : List MauKey
  scratch : Map Byte
  /-- The call that holds the half, by its key. -/
  call : Option Nat
  /-- Everything of the call is staged (R297). -/
  staged : Bool
  /-- The instance the half served last (R292, R296). -/
  last : Option Nat
  /-- The clear of the key store and scratch runs (R291). -/
  clearing : Bool
  /-- The clear after an abort or a fault, operand memory included, runs (R327). -/
  aborting : Bool
deriving DecidableEq, Repr

/-- A half after reset. -/
def MauHalf.reset : MauHalf where
  mem := []
  junk := none
  keys := []
  scratch := []
  call := none
  staged := false
  last := none
  clearing := false
  aborting := false

/-- What the macro operation of the running call found and made (R307 to R311). -/
structure MauRes where
  status : Nat
  /-- The call ends at V, not at T_full (R308). -/
  early : Bool
  out : Bytes
  /-- An invariant check failed (R310). -/
  check : Bool
deriving DecidableEq, Repr

/-- A curve set by ECSET: modulus slot, a, b (R317). -/
structure MauCurve where
  m : Nat
  a : Nat
  b : Nat
deriving DecidableEq, Repr

/-- A modulus set by MODSET: length in words and value (R317). -/
structure MauMod where
  len : Nat
  q : Nat
deriving DecidableEq, Repr

/-- One unit (R288 to R338). -/
structure Mau where
  half0 : MauHalf
  half1 : MauHalf
  /-- The half the next call placed takes (R288). -/
  nextHalf : Nat
  /-- The half whose call runs. -/
  run : Option Nat
  /-- Out of service until the next device reset (R330, R335). -/
  down : Bool
  direct : Bool
  oos : Bool
  done : Bool
  result : Nat
  inst : Nat
  opc : Nat
  /-- The global beat at which the running call began. -/
  startG : Nat
  /-- A software abort is requested and not yet taken (R324). -/
  abortReq : Bool
  res : Option MauRes
  /-- Position of the next raw command, data bytes used, and output so far (R315). -/
  rawPos : Nat
  rawData : Nat
  rawOut : Bytes
  /-- The prologue has accepted the list (R318). -/
  rawOk : Bool
  /-- A MODSET found an invalid modulus (R319). -/
  rawBad : Bool
  mods : Map (Option MauMod)
  curve : Option MauCurve
  /-- The direct command that runs (R321). -/
  cmd : Option W64
  rcmdLo : W32
  opmAddr : Nat
  /-- The sequencer runs a routine: its microaddress, the micro-stack and loop counters 0 to 3 (R331, R332). -/
  uon : Bool
  uaddr : Nat
  stack : List Nat
  loops : List Nat
  patch : Map (BitVec 160)
  /-- Words written of the next microword (R337). -/
  patchBuf : List W32
  patchAddr : Nat
  patchVer : Nat
  locked : Bool
  cntCalls : W32
  cntReject : W32
  cntCheck : W32
deriving DecidableEq, Repr

/-- A unit after reset (R337). -/
def Mau.reset : Mau where
  half0 := MauHalf.reset
  half1 := MauHalf.reset
  nextHalf := 0
  run := none
  down := false
  direct := false
  oos := false
  done := false
  result := 0
  inst := 0
  opc := 0
  startG := 0
  abortReq := false
  res := none
  rawPos := 0
  rawData := 0
  rawOut := []
  rawOk := false
  rawBad := false
  mods := []
  curve := none
  cmd := none
  rcmdLo := 0#32
  opmAddr := 0
  uon := false
  uaddr := 0
  stack := []
  loops := [0, 0, 0, 0]
  patch := []
  patchBuf := []
  patchAddr := 0
  patchVer := 0
  locked := false
  cntCalls := 0#32
  cntReject := 0#32
  cntCheck := 0#32

end Sys2Proof.Machine
end

