-- ==== Sys2Proof/Machine/StateMedia.lean ====
section
/-!
DEFINITION. The state of the card host, the flash and the management port (chapter "SD Card Host, SPI Flash and
Management Port").
-/
namespace Sys2Proof.Machine

/-- A journal write in progress: blocks still to be confirmed, the first one written and busy (R617, R622). -/
structure SdJob where
  /-- The instance whose mailbox command writes, while its answer is owed. -/
  owed : Option Nat
  kind : Nat
  jseq : Nat
  blocks : List (Nat × Bytes)
deriving DecidableEq, Repr

/-- The card host (R611 to R627). -/
structure Sd where
  present : Bool
  wp : Bool
  ready : Bool
  mode : Nat
  v18 : Bool
  sdxc : Bool
  capGib : Nat
  tap : Nat
  width : Nat
  tunes : Nat
  /-- TMP_TEMP at the last tuning, and a data error since: a new tuning is due (R614). -/
  tuneTemp : BitVec 16
  retune : Bool
  /-- The service partition's bytes as the device last read or wrote them. -/
  part : Map Byte
  blocks : Nat
  job : Option SdJob
  /-- A card that cannot serve has been initialised (R611, R619). -/
  refused : Bool
  cntWrite : W32
  cntUncertain : W32
deriving DecidableEq, Repr

/-- The card host after reset (R635). -/
def Sd.reset : Sd where
  present := false
  wp := false
  ready := false
  mode := 0
  v18 := false
  sdxc := false
  capGib := 0
  tap := 0
  width := 0
  tunes := 0
  tuneTemp := 0#16
  retune := false
  part := []
  blocks := 0
  job := none
  refused := false
  cntWrite := 0#32
  cntUncertain := 0#32

/-- The flash (R628): images as they stand in their regions, empty where none stands, and the sectors of the checkpoint
region with their records, oldest first (R603). -/
structure Nor where
  slotA : Bytes
  slotB : Bytes
  patch : Bytes
  ckpt : List (List Bytes)
deriving DecidableEq, Repr

/-- A flash that holds nothing (log entry 7). -/
def Nor.reset : Nor where
  slotA := []
  slotB := []
  patch := []
  ckpt := []

/-- The management port (R630 to R633). -/
structure Mgt where
  bus : Nat
  dyn : Nat
  /-- 0 none, 1 busy, 2 ready, 3 refused. -/
  attest : Nat
  lastCmd : Nat
  offset : Nat
  nonce : Bytes
  report : Bytes
  /-- The data the last read transaction returned; none when it was not acknowledged. -/
  answer : Option Bytes
deriving DecidableEq, Repr

/-- The management port after reset (R635). -/
def Mgt.reset : Mgt where
  bus := 0
  dyn := 0
  attest := 0
  lastCmd := 0
  offset := 0
  nonce := []
  report := []
  answer := none

end Sys2Proof.Machine
end

