-- ==== Sys2Proof/Machine/StateSched.lean ====
section
/-!
DEFINITION. The state of the Schedule Controller: the score store, loading and placement, and the calls it plans
(chapter "Static Scheduling").
-/
namespace Sys2Proof.Machine

/-- Where a call stands. -/
inductive CallSt
  /-- In the SCH's pending pool (R206). -/
  | pool
  /-- Admitted; its staging is not complete (R215). -/
  | staging
  /-- Staged; waits for its start beat (R214). -/
  | staged
  | inPeal
  /-- Between two attempts of a chain (R229). -/
  | between
  /-- Released, in the completion FIFO or waiting for push and stagger (R224 to R226). -/
  | released
  /-- A MAU call admitted and not yet placed (R296). -/
  | unplaced
  /-- A key-table operation waiting for its turn (R443). -/
  | keyOp
deriving DecidableEq, Repr

/-- What a half of a call left at its release beat (R222, R237). -/
structure HalfRes where
  word : Bytes
  out : Bytes
  key0 : Option (Bytes × Bytes)
  key1 : Option (Bytes × Bytes)
  leave : Option LeaveCause
  denied : Option Nat
deriving DecidableEq, Repr

/-- A placement of a call: an engine and frame, or a MAU half. -/
structure Half where
  unit : Nat
  frame : Nat
  /-- Local start beat (engines). -/
  start : Nat
  res : Option HalfRes
deriving DecidableEq, Repr

/-- An output key of a call: key number, reserved slot and key length (R416). -/
structure OutKey where
  num : Nat
  slot : Nat
  klen : Nat
deriving DecidableEq, Repr

/-- The sizes that fix a MAU call's times, as admission found them: modulus bits, bytes of a field element and of the order,
bits of the field, and the public exponent where the key table knows it (R295, R299, R306, R307). -/
structure MauSize where
  k : Nat
  f : Nat
  n : Nat
  w : Nat
  e : Option Nat
deriving DecidableEq, Repr

/-- A call that is no MAU call. -/
def MauSize.none : MauSize := { k := 0, f := 0, n := 0, w := 0, e := Option.none }

/-- A call from its taking to its completion. -/
structure Call where
  inst : Nat
  queue : Nat
  index : BitVec 16
  /-- The 64 bytes of the descriptor. -/
  desc : Bytes
  cls : Nat
  /-- Order of arrival in the pool. -/
  seq : Nat
  /-- The variant that serves the call, and its score's STAGGER, from admission on (R195, R194). -/
  var : Option Variant
  stagger : Nat
  paired : Bool
  st : CallSt
  place : List Half
  admitG : Nat
  /-- The global beat at which staging completed. -/
  stagedG : Nat
  input : Bytes
  rand : List Bytes
  okeys : List OutKey
  /-- The reservation counter a TREE_BEGIN holds (R445). -/
  counter : Option Nat
  /-- The tag drawn at staging for a tree's counter (R445). -/
  tag : Nat
  /-- The stateful index assigned at admission (R284). -/
  qIndex : Option Nat
  attempt : Nat
  replays : Nat
  /-- Replays after a MAU_FAULT (R330). -/
  mauReplays : Nat
  size : MauSize
  /-- The unit a MAU replay does not return to (R330). -/
  avoid : Option Nat
  /-- The engines a replay does not return to (R233). -/
  avoidEng : List Nat
  lates : Nat
  /-- Reservation-list positions of the stream extents already filled (R218). -/
  streams : List Nat
  status : Nat
  outLen : Nat
  out : Bytes
  /-- Handles of the output keys made valid. -/
  made : List (Nat × Nat)
  relG : Nat
  /-- The global beat before which the completion is not written (R225, R298). -/
  due : Nat
  pushed : Bool
  inFifo : Bool
deriving DecidableEq, Repr

/-- A placement in progress (R203). -/
structure Placement where
  cluster : Nat
  mask : W32
  /-- Store entry, or none to empty. -/
  index : Option Nat
deriving DecidableEq, Repr

/-- The Schedule Controller (R184 to R242). -/
structure Sched where
  store : Map (Option Score)
  /-- A fetched image that waits for its checks: the bytes, or none after a bus error or window miss (R200). -/
  fetched : Option (Option Bytes)
  loadIndex : Nat
  loadResult : Nat
  placing : Option Placement
  placeResult : Nat
  cntSlip : W32
  cntReplay : W32
  cntPairfail : W32
  cntLate : W32
  gHigh : W32
  calls : Map (Option Call)
  nextCall : Nat
  virt : Map Nat
  /-- Engine-beats admitted in the running period: bulk, normal, urgent (R207). -/
  sumBulk : Nat
  sumNormal : Nat
  sumUrgent : Nat
  periodStart : Nat
  /-- The beat of the last admission and how many it had (R210). -/
  admitBeat : Nat
  admitCount : Nat
  /-- The queue last served, per instance (R208). -/
  lastQueue : Map Nat
  /-- The governor holds bulk or normal admission (R36, R213). -/
  holdBulk : Bool
  holdNormal : Bool
  /-- Global beats of the wakes granted inside the running window (R39). -/
  wakeTimes : List Nat
deriving DecidableEq, Repr

/-- The Schedule Controller after reset (R241). -/
def Sched.reset : Sched where
  store := []
  fetched := none
  loadIndex := 0
  loadResult := 0
  placing := none
  placeResult := 0
  cntSlip := 0#32
  cntReplay := 0#32
  cntPairfail := 0#32
  cntLate := 0#32
  gHigh := 0#32
  calls := []
  nextCall := 1
  virt := []
  sumBulk := 0
  sumNormal := 0
  sumUrgent := 0
  periodStart := 0
  admitBeat := 0
  admitCount := 0
  lastQueue := []
  holdBulk := false
  holdNormal := false
  wakeTimes := []

end Sys2Proof.Machine
end

