-- ==== Sys2Proof/Machine/StateTamper.lean ====
section
/-!
DEFINITION. The state of the tamper and environment monitor and of the governor (chapters "Tamper and Environment
Monitoring" and "Electrical, Clocking and Package Specifications").
-/
namespace Sys2Proof.Machine

/-- A source that is outside its band or active (R550 to R564). -/
structure Alarm where
  /-- Bit in TMP_FSTAT. -/
  src : Nat
  unit : Nat
  level : Nat
deriving DecidableEq, Repr

/-- The monitor (R550 to R578). -/
structure Tmp where
  lock : Bool
  meshEn : Bool
  holdMs : Nat
  lvlRail : W32
  lvlEnv : W32
  lvlIn : W32
  inCfg : W32
  stuck : BitVec 6
  filt : BitVec 6
  raw : BitVec 6
  /-- The global beat since which each of the six inputs has been inactive; negative from before the last reset. -/
  quietAt : Map Int
  active : List Alarm
  /-- The global beat at which the last source of level 2 or above became inactive. -/
  holdFrom : Int
  /-- TMP_STAT.RESP. -/
  resp : Nat
  first : Nat
  /-- Pending-evidence count (R572). -/
  evid : Nat
  battRec : W32
  tj : BitVec 16
  cntEpisode : W32
  cntAlarm : W32
  mesh : BitVec 31
  battery : Bool
  /-- Active in the last window on battery (R569). -/
  battPrev : BitVec 6
deriving DecidableEq, Repr

/-- The monitor at the values after loss of VBAT (R565, R577; log entry 8). -/
def Tmp.reset : Tmp where
  lock := false
  meshEn := false
  holdMs := 10
  lvlRail := 0x25A69A#32
  lvlEnv := 0x194DA#32
  lvlIn := 0x24924#32
  inCfg := 0xF0#32
  stuck := 0#6
  filt := 0#6
  raw := 0#6
  quietAt := []
  active := []
  holdFrom := 0
  resp := 0
  first := 0
  evid := 0
  battRec := 0#32
  tj := 0#16
  cntEpisode := 0#32
  cntAlarm := 0#32
  mesh := 0#31
  battery := false
  battPrev := 0#6

/-- An action of the governor (R36). -/
inductive GovAct
  /-- A cluster one step down. -/
  | step (c : Nat)
  | bulk
  | normal
deriving DecidableEq, Repr

/-- The governor and the memory controller (R645 to R648, R662). -/
structure Gov where
  /-- Actions taken, the latest first. -/
  acts : List GovAct
  /-- The global beat since which the demand has stayed at or below 90 % of the limit, or of the last release. -/
  lowSince : Option Nat
  /-- Demand at the last evaluation, in units of 0.01 W. -/
  demand : Nat
  ok0 : Bool
  ok1 : Bool
  gib0 : Nat
  gib1 : Nat
  /-- Data rate in units of 100 MT/s. -/
  speed : Nat
deriving DecidableEq, Repr

/-- The governor after reset (R662). -/
def Gov.reset : Gov where
  acts := []
  lowSince := none
  demand := 0
  ok0 := false
  ok1 := false
  gib0 := 0
  gib1 := 0
  speed := 0

end Sys2Proof.Machine
end

