-- ==== Sys2Proof/Machine/State.lean ====
section
/-!
DEFINITION. The whole state of the device, the fault and refusal names, and the state right after reset.
-/
namespace Sys2Proof.Machine

/-- Why a step stops the machine: nothing does, because every command of the table has the effect the spec gives it. -/
inductive Fault
  /-- Raised by no meaning; kept so that the type has a member. Safe. -/
  | none
deriving DecidableEq, Repr

/-- Why a command is refused. -/
inductive Refusal
  /-- The command has no meaning in the model yet; raised by an arm of exec only. Safe. -/
  | notModelled (mnemonic : String)
deriving DecidableEq, Repr

/-- The state of the block. -/
structure State where
  /-- Commands that wait, first in, first out. -/
  pending : List Instr
  /-- The model's own: counts the free values already used. -/
  freeCtr : Nat
  /-- The global beat count G (R184). -/
  g : Nat
  /-- Registers that hold what was written to them, by PF BAR0 offset. -/
  regs : Map W32
  faults : Map FaultRegs
  evr : Evr
  /-- FAULT_N driven low (R592). -/
  faultPin : Bool
  msix : Map MsixEntry
  hostMem : Map Byte
  instances : Map Instance
  link : Link
  engines : Map Engine
  clusters : Map Cluster
  sch : Sched
  maus : Map Mau
  keys : Keys
  bbram : Bbram
  dram : Map Byte
  ent : Ent
  otp : Otp
  /-- The life-cycle state in force (R511). -/
  lc : LcState
  lcc : Lcc
  boot : Boot
  tmp : Tmp
  /-- A response at L2 or above lasts (R551, R553). -/
  alarm : Bool
  gov : Gov
  dge : Dge
  dma : Dma
  sd : Sd
  nor : Nor
  mgt : Mgt
  /-- The global beat at which the running budget period began (R348). -/
  budgetStart : Nat
  /-- What the last register read returned to its reader. -/
  rdata : W32
deriving DecidableEq, Repr

/-- The device right after reset: a power-on of a part whose fuses, flash and battery-backed memory hold nothing
(R531, R532; log entries 1 to 9). -/
def State.reset : State where
  pending := []
  freeCtr := 0
  g := 0
  regs := []
  faults := []
  evr := Evr.reset
  faultPin := false
  msix := []
  hostMem := []
  instances := []
  link := Link.reset
  engines := []
  clusters := []
  sch := Sched.reset
  maus := []
  keys := Keys.reset
  bbram := Bbram.reset
  dram := []
  ent := Ent.reset
  otp := Otp.reset
  lc := .raw
  lcc := Lcc.reset
  boot := Boot.reset
  tmp := Tmp.reset
  alarm := false
  gov := Gov.reset
  dge := Dge.reset
  dma := Dma.reset
  sd := Sd.reset
  nor := Nor.reset
  mgt := Mgt.reset
  budgetStart := 0
  rdata := 0#32

end Sys2Proof.Machine
end

