-- ==== Sys2Proof/Machine/Ops.lean ====
section
/-!
DEFINITION. The named operations over the state: parts of it, host memory, MSI-X messages, and raising a source
(R585 to R595, R601).
-/
namespace Sys2Proof.Machine

/-- What an unlisted engine reads as. -/
def dfltEng : Nat → Engine := fun _ => Engine.reset

/-- What an unlisted cluster reads as. -/
def dfltCl : Nat → Cluster := fun _ => Cluster.reset

/-- What an unlisted instance reads as: instance 0 is the PF. -/
def dfltInst : Nat → Instance := fun _ => Instance.reset

/-- What an unlisted queue reads as. -/
def dfltQueue : Nat → Queue := fun _ => Queue.reset

/-- What an unlisted MSI-X entry reads as. -/
def dfltMsix : Nat → MsixEntry := fun _ => MsixEntry.reset

/-- Engine number `i`, 32 to a cluster. -/
def State.eng (s : State) (i : Nat) : Engine := mget dfltEng s.engines i

/-- The state with engine `i` replaced. -/
def State.setEng (s : State) (i : Nat) (e : Engine) : State := { s with engines := mset dfltEng s.engines i e }

/-- Cluster `c`. -/
def State.cl (s : State) (c : Nat) : Cluster := mget dfltCl s.clusters c

/-- The state with cluster `c` replaced. -/
def State.setCl (s : State) (c : Nat) (k : Cluster) : State := { s with clusters := mset dfltCl s.clusters c k }

/-- Instance `i`. -/
def State.inst (s : State) (i : Nat) : Instance := mget dfltInst s.instances i

/-- The state with instance `i` replaced. -/
def State.setInst (s : State) (i : Nat) (x : Instance) : State :=
  { s with instances := mset dfltInst s.instances i x }

/-- Queue `q` of instance `i`. -/
def State.queue (s : State) (i q : Nat) : Queue := mget dfltQueue (s.inst i).queues q

/-- The state with queue `q` of instance `i` replaced. -/
def State.setQueue (s : State) (i q : Nat) (x : Queue) : State :=
  let y := s.inst i
  s.setInst i { y with queues := mset dfltQueue y.queues q x }

/-- The stored value of a register, by PF BAR0 offset. -/
def State.reg (s : State) (a : Nat) : W32 := mget regReset s.regs a

/-- The state with a register's stored value replaced. -/
def State.setReg (s : State) (a : Nat) (v : W32) : State := { s with regs := mset regReset s.regs a v }

/-- The MSI-X entry of a vector of an instance. -/
def State.msixOf (s : State) (i v : Nat) : MsixEntry := mget dfltMsix s.msix (i * 64 + v)

/-- The state with an MSI-X entry replaced. -/
def State.setMsix (s : State) (i v : Nat) (e : MsixEntry) : State :=
  { s with msix := mset dfltMsix s.msix (i * 64 + v) e }

/-- Writes bytes into host memory. -/
def State.hostWrite (s : State) (a : Nat) (b : Bytes) : State := { s with hostMem := wrBytes s.hostMem a b }

/-- Sends the message of a vector: its data word to its address. -/
def State.msixSend (s : State) (i v : Nat) : State :=
  let e := s.msixOf i v
  (s.hostWrite (e.addrLo.toNat + e.addrHi.toNat * 2 ^ 32) (natLe 4 e.data.toNat)).setMsix i v { e with pend := false }

/-- A cause for a vector: the message is sent, or its pending bit is set while the vector is masked or the instance is
FROZEN or in a Function Level Reset (R378, R384, R386). -/
def State.raiseVec (s : State) (i v : Nat) : State :=
  let e := s.msixOf i v
  let st := (s.inst i).st
  if e.masked || st == .frozen || st == .saved || st == .inFlr then s.setMsix i v { e with pend := true }
  else s.msixSend i v

/-! Fault blocks: 0 to 15 the clusters, 16 to 47 the MAUs, then the single blocks. -/

abbrev blkMau : Nat := 16
abbrev blkHiu : Nat := 48
abbrev blkKt : Nat := 49
abbrev blkEnt : Nat := 50
abbrev blkLcc : Nat := 51
abbrev blkTmp : Nat := 52
abbrev blkDma : Nat := 53
abbrev blkDge : Nat := 54
abbrev blkSdh : Nat := 55
abbrev blkMem : Nat := 56
abbrev blkSup : Nat := 57

/-- The global number of bit `b` of a block (R589). -/
def sourceNum (blk b : Nat) : Nat :=
  if blk < 16 then 24 * blk + b
  else if blk < 48 then 384 + 2 * (blk - 16) + b
  else b + ([448, 480, 492, 502, 508, 522, 538, 544, 550, 556].getD (blk - 48) 560)

/-- The block and bit of a global source number (R589). -/
def sourceOf (g : Nat) : Nat × Nat :=
  if g < 384 then (g / 24, g % 24)
  else if g < 448 then (16 + (g - 384) / 2, (g - 384) % 2)
  else if g < 480 then (blkHiu, g - 448) else if g < 492 then (blkKt, g - 480)
  else if g < 502 then (blkEnt, g - 492) else if g < 508 then (blkLcc, g - 502)
  else if g < 522 then (blkTmp, g - 508) else if g < 538 then (blkDma, g - 522)
  else if g < 544 then (blkDge, g - 538) else if g < 550 then (blkSdh, g - 544)
  else if g < 556 then (blkMem, g - 550) else (blkSup, g - 556)

/-- How many sources a block has (R589). -/
def sourceCount (blk : Nat) : Nat :=
  if blk < 16 then 24 else if blk < 48 then 2 else [32, 12, 10, 6, 14, 16, 6, 6, 6, 4].getD (blk - 48) 0

/-- The class of a source: 0 corrected, 1 contained, 2 fatal (R105, R329, R402, R450, R476, R530, R578, R507, R494,
R590). -/
def sourceClass (blk b : Nat) : Nat :=
  let corrected : List Nat :=
    if blk < 16 then [16, 23] else if blk < 48 then [1]
    else [[4, 5, 6, 7, 8, 10, 11, 16, 20, 21, 22, 23, 25, 26, 27, 28, 29, 30], [3, 4, 6, 7, 8, 9, 10, 11],
          [0, 1, 2, 3, 4, 8, 9], [0, 2, 5], [11, 13], [8, 9, 10, 12], [4, 5], [0, 1, 5], [2, 5], [3]].getD (blk - 48) []
  let fatal : List Nat :=
    if blk < 16 then [20, 21, 22] else if blk < 48 then []
    else [[18], [], [6], [4], [10, 12], [15], [], [], [4], [0]].getD (blk - 48) []
  if corrected.contains b then 0 else if fatal.contains b then 2 else 1

/-- The bit position of FSYN0.SOURCE in a block (R102, R398, R590 and the block chapters). -/
def sourceShift (blk : Nat) : Nat :=
  if blk < 16 then 22 else if blk < 48 then 30
  else [26, 27, 27, 28, 27, 27, 28, 28, 28, 29].getD (blk - 48) 0

/-- The reset value of a block's fault registers: every source enabled (of SUP, FEN = 0xF: R608). -/
def dfltFault (blk : Nat) : FaultRegs :=
  { fstat := 0#32, fen := BitVec.ofNat 32 (2 ^ sourceCount blk - 1), fsyn0 := 0#32, fsyn1 := 0#32, fmerge := 0 }

/-- The default MSI-X vector of a source (R593). -/
def routeVec (blk b : Nat) : Nat :=
  if blk < 16 then 17 + blk else if blk < 48 then 33
  else if blk == blkDma && (b == 9 || b == 10) then 44
  else [34, 35, 36, 37, 38, 39, 40, 41, 42, 43].getD (blk - 48) 0

/-- The reset value of a route register (R593). -/
def dfltRoute (g : Nat) : W32 :=
  let p := sourceOf g
  let low := if p.1 == blkDma && (p.2 == 9 || p.2 == 10) then 0x08
    else match sourceClass p.1 p.2 with
      | 0 => if p.1 == blkHiu && p.2 == 25 then 0x18 else 0x10
      | 1 => 0x1C
      | _ => 0x1E
  BitVec.ofNat 32 (routeVec p.1 p.2 * 256 + low)

/-- The fault registers of a block. -/
def State.fault (s : State) (blk : Nat) : FaultRegs := mget dfltFault s.faults blk

/-- The state with the fault registers of a block replaced. -/
def State.setFault (s : State) (blk : Nat) (f : FaultRegs) : State := { s with faults := mset dfltFault s.faults blk f }

/-- The route of a source (R592). -/
def State.route (s : State) (g : Nat) : W32 := mget dfltRoute s.evr.routes g

/-- A waiting occurrence joins the recorder's queue, or increments the REPEAT of one that already waits (R601). -/
def addOccurrence (o : Occurrence) : List Occurrence → List Occurrence
  | [] => [o]
  | x :: t => if x.type = o.type ∧ x.type < 560 then { x with rep := x.rep + 1 + o.rep } :: t else x :: addOccurrence o t

/-- Hands an occurrence to the event recorder (R601). -/
def State.note (s : State) (o : Occurrence) : State :=
  { s with evr := { s.evr with waiting := addOccurrence o s.evr.waiting } }

/-- The syndrome word FSYN0 of an occurrence with VALID set (R585, R597). -/
def synWord (blk b : Nat) (d0 : W32) : W32 := d0 ||| at32 b (sourceShift blk) ||| 0x80000000#32

/-- Sends a raised source along its route (R592, R595). -/
def State.routeSource (s : State) (blk b : Nat) (syn0 syn1 : W32) (forced : Bool) : State :=
  let g := sourceNum blk b
  let r := s.route g
  let o : Occurrence :=
    { type := g, flags := sourceClass blk b + 4 * b2n forced, body := natLe 4 syn0.toNat ++ natLe 4 syn1.toNat,
      rep := 0, opsec := s.evr.opsec }
  let s := if bit32 r 4 then s.note o else s
  let s := if bit32 r 3 then s.raiseVec 0 (fld r 8 6) else s
  let s := if bit32 r 1 then { s with faultPin := true } else s
  if bit32 r 0 then { s with evr := { s.evr with resetWait := s.evr.resetWait ++ [(g, s.g + 3906250)] } } else s

/-- Raises bit `b` of a block with its syndrome details (R585, R586, R588). -/
def State.raiseWith (s : State) (blk b : Nat) (d0 d1 : W32) (forced : Bool) : State :=
  let f := s.fault blk
  if !bit32 f.fen b then s
  else
    let syn0 := synWord blk b d0
    let f := { f with fstat := f.fstat ||| at32 1 b }
    let f := if bit32 f.fsyn0 31 then { f with fmerge := min 0xFFFF (f.fmerge + 1) }
             else { f with fsyn0 := syn0, fsyn1 := d1 }
    (s.setFault blk f).routeSource blk b syn0 d1 forced

/-- Raises a source as the device does. -/
def State.raise (s : State) (blk b : Nat) (d0 d1 : W32) : State := s.raiseWith blk b d0 d1 false

/-- A fresh index for free values. -/
def State.useFree (s : State) (n : Nat) : State := { s with freeCtr := s.freeCtr + n }

end Sys2Proof.Machine
end

