-- ==== Sys2Proof/Machine/Draw.lean ====
section
/-!
DEFINITION. Drawing from the DRBG bank (R461 to R467) and from the Sealing Unit's IV reserve (R468).
-/
namespace Sys2Proof.Machine

/-- What an unlisted DRBG instance reads as. -/
def dfltDrbg : Nat → Drbg := fun _ => Drbg.reset

/-- DRBG instance `n`. -/
def State.drbg (s : State) (n : Nat) : Drbg := mget dfltDrbg s.ent.drbgs n

/-- The state with a DRBG instance replaced. -/
def State.setDrbg (s : State) (n : Nat) (d : Drbg) : State :=
  { s with ent := { s.ent with drbgs := mset dfltDrbg s.ent.drbgs n d } }

/-- The lowest-numbered instance that serves (R463). -/
def State.servingDrbg (s : State) : Option Nat := (List.range 16).find? fun n => (s.drbg n).st == .serving

/-- Serves one request of a number of bits on an instance; after its 4,096th it waits for a reseed (R461, R464). -/
def State.drbgServe (s : State) (n bits : Nat) : BitVec 512 × State :=
  let d := s.drbg n
  let k := d.reqs + 1
  let t := s.setDrbg n { d with
    work := drbgNext bits d.work, reqs := k, st := if 4096 ≤ k then .reseeding else d.st }
  (drbgOut d.work, { t with ent := { t.ent with requests := s.ent.requests + 1#32 } })

/-- One request of 512 bits; none while no instance serves (R461, R463, R467). -/
def State.draw (s : State) : Option (BitVec 512 × State) := s.servingDrbg.map fun n => s.drbgServe n 512

/-- One request of 256 bits. -/
def State.draw256 (s : State) : Option (BitVec 256 × State) :=
  s.servingDrbg.map fun n => let r := s.drbgServe n 256; (r.1.setWidth 256, r.2)

/-- 32 fresh bytes of a 256-bit request. -/
def State.draw32 (s : State) : Option (Bytes × State) := s.draw256.map fun r => (natLe 32 r.1.toNat, r.2)

/-- `n` requests of 32 bytes each, or none when one cannot be served. -/
def State.drawBlocks (s : State) : Nat → Option (List Bytes × State)
  | 0 => some ([], s)
  | n + 1 => match s.draw32 with
    | none => none
    | some r => (r.2.drawBlocks n).map fun t => (r.1 :: t.1, t.2)

/-- A request that ENT refuses while it is HALTED is counted (R475). -/
def State.deniedDraw (s : State) : State := { s with ent := { s.ent with denied := s.ent.denied + 1#32 } }

/-- Takes one IV from the reserve; none when it is empty (R468). -/
def State.takeIv (s : State) : Option (BitVec 96 × State) :=
  match s.ent.ivs with
  | [] => none
  | v :: t => some (v, { s with ent := { s.ent with ivs := t } })

end Sys2Proof.Machine
end

