-- ==== Sys2Proof/Machine/KeccakF.lean ====
section
/-!
DEFINITION. The permutation Keccak-f[1600], the one of the Keccak unit (R74, R164) and of the digests.
-/
namespace Sys2Proof.Machine

/-- A Keccak state as its 25 lanes, lane x + 5 y (R164). -/
abbrev KLanes := List W64

/-- The lanes of a slot. -/
def lanesOf (k : KSlot) : KLanes := (List.range 25).map fun i => (k >>> (64 * i)).setWidth 64

/-- The slot of 25 lanes. -/
def slotOf : KLanes → KSlot
  | [] => 0#1600
  | l :: t => (slotOf t <<< 64) ||| l.setWidth 1600

/-- Lane (x, y). -/
def kl (a : KLanes) (x y : Nat) : W64 := a.getD (x % 5 + 5 * (y % 5)) 0#64

/-- A state built lane by lane. -/
def kmk (g : Nat → Nat → W64) : KLanes := (List.range 25).map fun i => g (i % 5) (i / 5)

/-- The rotation offsets of rho, lane x + 5 y. -/
def rhoOffsets : List Nat :=
  [0, 1, 62, 28, 27, 36, 44, 6, 55, 20, 3, 10, 43, 25, 39, 41, 45, 15, 21, 8, 18, 2, 61, 56, 14]

/-- The round constants of iota. -/
def roundConsts : List W64 :=
  [0x0000000000000001#64, 0x0000000000008082#64, 0x800000000000808A#64, 0x8000000080008000#64,
   0x000000000000808B#64, 0x0000000080000001#64, 0x8000000080008081#64, 0x8000000000008009#64,
   0x000000000000008A#64, 0x0000000000000088#64, 0x0000000080008009#64, 0x000000008000000A#64,
   0x000000008000808B#64, 0x800000000000008B#64, 0x8000000000008089#64, 0x8000000000008003#64,
   0x8000000000008002#64, 0x8000000000000080#64, 0x000000000000800A#64, 0x800000008000000A#64,
   0x8000000080008081#64, 0x8000000000008080#64, 0x0000000080000001#64, 0x8000000080008008#64]

/-- theta. -/
def kTheta (a : KLanes) : KLanes :=
  let c := (List.range 5).map fun x => kl a x 0 ^^^ kl a x 1 ^^^ kl a x 2 ^^^ kl a x 3 ^^^ kl a x 4
  let d := (List.range 5).map fun x => c.getD ((x + 4) % 5) 0#64 ^^^ (c.getD ((x + 1) % 5) 0#64).rotateLeft 1
  kmk fun x y => kl a x y ^^^ d.getD x 0#64

/-- rho and pi: lane (x, y) comes from lane (x + 3 y, x). -/
def kRhoPi (a : KLanes) : KLanes :=
  kmk fun x y => let sx := (x + 3 * y) % 5
                 (kl a sx x).rotateLeft (rhoOffsets.getD (sx + 5 * x) 0)

/-- chi. -/
def kChi (a : KLanes) : KLanes := kmk fun x y => kl a x y ^^^ (~~~(kl a (x + 1) y) &&& kl a (x + 2) y)

/-- One round. -/
def kRound (a : KLanes) (rc : W64) : KLanes :=
  match kChi (kRhoPi (kTheta a)) with
  | [] => []
  | l :: t => (l ^^^ rc) :: t

/-- The first `n` rounds of Keccak-f[1600]. -/
def keccakRounds (n : Nat) (k : KSlot) : KSlot := slotOf ((roundConsts.take n).foldl kRound (lanesOf k))

/-- Keccak-f[1600] (R74). -/
def keccakF (k : KSlot) : KSlot := keccakRounds 24 k

end Sys2Proof.Machine
end

