-- ==== Sys2Proof/Machine/Hash.lean ====
section
/-!
DEFINITION. The digests of R477 and what the spec builds on them: SHA-2 (FIPS 180-4), SHA-3 and SHAKE (FIPS 202), KMAC
(SP 800-185), HMAC and HKDF (RFC 2104, RFC 5869). The spec names these standards and does not restate them (log entry 15).
-/
namespace Sys2Proof.Machine

/-! ## SHA-2 -/

/-- The round constants of SHA-512; those of SHA-256 are the upper halves of the first 64. -/
def sha2K : List Nat :=
  [0x428A2F98D728AE22, 0x7137449123EF65CD, 0xB5C0FBCFEC4D3B2F, 0xE9B5DBA58189DBBC,
   0x3956C25BF348B538, 0x59F111F1B605D019, 0x923F82A4AF194F9B, 0xAB1C5ED5DA6D8118,
   0xD807AA98A3030242, 0x12835B0145706FBE, 0x243185BE4EE4B28C, 0x550C7DC3D5FFB4E2,
   0x72BE5D74F27B896F, 0x80DEB1FE3B1696B1, 0x9BDC06A725C71235, 0xC19BF174CF692694,
   0xE49B69C19EF14AD2, 0xEFBE4786384F25E3, 0x0FC19DC68B8CD5B5, 0x240CA1CC77AC9C65]
  ++ [0x2DE92C6F592B0275, 0x4A7484AA6EA6E483, 0x5CB0A9DCBD41FBD4, 0x76F988DA831153B5,
   0x983E5152EE66DFAB, 0xA831C66D2DB43210, 0xB00327C898FB213F, 0xBF597FC7BEEF0EE4,
   0xC6E00BF33DA88FC2, 0xD5A79147930AA725, 0x06CA6351E003826F, 0x142929670A0E6E70,
   0x27B70A8546D22FFC, 0x2E1B21385C26C926, 0x4D2C6DFC5AC42AED, 0x53380D139D95B3DF,
   0x650A73548BAF63DE, 0x766A0ABB3C77B2A8, 0x81C2C92E47EDAEE6, 0x92722C851482353B]
  ++ [0xA2BFE8A14CF10364, 0xA81A664BBC423001, 0xC24B8B70D0F89791, 0xC76C51A30654BE30,
   0xD192E819D6EF5218, 0xD69906245565A910, 0xF40E35855771202A, 0x106AA07032BBD1B8,
   0x19A4C116B8D2D0C8, 0x1E376C085141AB53, 0x2748774CDF8EEB99, 0x34B0BCB5E19B48A8,
   0x391C0CB3C5C95A63, 0x4ED8AA4AE3418ACB, 0x5B9CCA4F7763E373, 0x682E6FF3D6B2B8A3,
   0x748F82EE5DEFB2FC, 0x78A5636F43172F60, 0x84C87814A1F0AB72, 0x8CC702081A6439EC]
  ++ [0x90BEFFFA23631E28, 0xA4506CEBDE82BDE9, 0xBEF9A3F7B2C67915, 0xC67178F2E372532B,
   0xCA273ECEEA26619C, 0xD186B8C721C0C207, 0xEADA7DD6CDE0EB1E, 0xF57D4F7FEE6ED178,
   0x06F067AA72176FBA, 0x0A637DC5A2C898A6, 0x113F9804BEF90DAE, 0x1B710B35131C471B,
   0x28DB77F523047D84, 0x32CAAB7B40C72493, 0x3C9EBE0A15C9BEBC, 0x431D67C49C100D4C,
   0x4CC5D4BECB3E42B6, 0x597F299CFC657E2A, 0x5FCB6FAB3AD6FAEC, 0x6C44198C4A475817]

/-- The initial values of SHA-512 and SHA-384. SHA-256 takes the upper halves of the first, SHA-224 the lower halves of the
second. -/
def sha512Init : List Nat :=
  [0x6A09E667F3BCC908, 0xBB67AE8584CAA73B, 0x3C6EF372FE94F82B, 0xA54FF53A5F1D36F1,
   0x510E527FADE682D1, 0x9B05688C2B3E6C1F, 0x1F83D9ABFB41BD6B, 0x5BE0CD19137E2179]
def sha384Init : List Nat :=
  [0xCBBB9D5DC1059ED8, 0x629A292A367CD507, 0x9159015A3070DD17, 0x152FECD8F70E5939,
   0x67332667FFC00B31, 0x8EB44A8768581511, 0xDB0C2E0D64F98FA7, 0x47B5481DBEFA4FA4]

/-- The initial value of SHA-512/256. -/
def sha512t256Init : List Nat :=
  [0x22312194FC2BF72C, 0x9F555FA3C84C64C2, 0x2393B86B6F53B151, 0x963877195940EABD,
   0x96283EE2A88EFFE3, 0xBE5E1E2553863992, 0x2B0199FC2C85B8AA, 0x0EB72DDC81C52CA2]

/-- Rotation of a `w`-bit word to the right. -/
def rotr (w n x : Nat) : Nat := ((x >>> n) ||| (x <<< (w - n))) % 2 ^ w

/-- A variant of SHA-2: the word size, the rounds, and the shifts of its four functions. -/
structure Sha2 where
  w : Nat
  rounds : Nat
  big0 : Nat × Nat × Nat
  big1 : Nat × Nat × Nat
  small0 : Nat × Nat × Nat
  small1 : Nat × Nat × Nat

/-- The variants of 32-bit and of 64-bit words. -/
def sha2w32 : Sha2 := ⟨32, 64, (2, 13, 22), (6, 11, 25), (7, 18, 3), (17, 19, 10)⟩
def sha2w64 : Sha2 := ⟨64, 80, (28, 34, 39), (14, 18, 41), (1, 8, 7), (19, 61, 6)⟩

/-- Three rotations, or two rotations and a shift, added. -/
def Sha2.rot3 (v : Sha2) (r : Nat × Nat × Nat) (x : Nat) : Nat := rotr v.w r.1 x ^^^ rotr v.w r.2.1 x ^^^ rotr v.w r.2.2 x
def Sha2.rot2 (v : Sha2) (r : Nat × Nat × Nat) (x : Nat) : Nat := rotr v.w r.1 x ^^^ rotr v.w r.2.1 x ^^^ (x >>> r.2.2)

/-- The message schedule, the latest word first, extended by `n` words. -/
def Sha2.extend (v : Sha2) : Nat → List Nat → List Nat
  | 0, l => l
  | n + 1, l =>
    let x := v.rot2 v.small1 (l.getD 1 0) + l.getD 6 0 + v.rot2 v.small0 (l.getD 14 0) + l.getD 15 0
    v.extend n (x % 2 ^ v.w :: l)

/-- One round, with the round constant and the schedule's word. -/
def Sha2.round (v : Sha2) (s : List Nat) (x : Nat × Nat) : List Nat :=
  match s with
  | [a, b, c, d, e, f, g, h] =>
    let m := 2 ^ v.w
    let t1 := h + v.rot3 v.big1 e + ((e &&& f) ^^^ ((e ^^^ (m - 1)) &&& g)) + x.1 + x.2
    let t2 := v.rot3 v.big0 a + ((a &&& b) ^^^ (a &&& c) ^^^ (b &&& c))
    [(t1 + t2) % m, a, b, c, (d + t1) % m, e, f, g]
  | l => l

/-- The round constants of a variant. -/
def Sha2.consts (v : Sha2) : List Nat := if v.w = 32 then (sha2K.take 64).map (· / 2 ^ 32) else sha2K

/-- The compression of one block. -/
def Sha2.block (v : Sha2) (s : List Nat) (b : Bytes) : List Nat :=
  let n := v.w / 8
  let first := (List.range 16).map fun i => beNat ((b.drop (n * i)).take n)
  let sched := (v.extend (v.rounds - 16) first.reverse).reverse
  let t := (v.consts.zip sched).foldl v.round s
  (s.zip t).map fun p => (p.1 + p.2) % 2 ^ v.w

/-- The message with its padding and its length in bits. -/
def Sha2.padded (v : Sha2) (m : Bytes) : Bytes :=
  let bs := 2 * v.w
  let lb := v.w / 4
  let z := (2 * bs - (m.length + 1 + lb) % bs) % bs
  m ++ 0x80#8 :: (List.replicate z 0#8 ++ natBe lb (8 * m.length))

/-- The digest from an initial value, `n` bytes of it. -/
def Sha2.hash (v : Sha2) (init : List Nat) (n : Nat) (m : Bytes) : Bytes :=
  let p := v.padded m
  let bs := 2 * v.w
  let s := (List.range (p.length / bs)).foldl (fun s i => v.block s ((p.drop (bs * i)).take bs)) init
  (s.flatMap fun x => natBe (v.w / 8) x).take n

/-- SHA-224, SHA-256, SHA-384, SHA-512 and SHA-512/256. -/
@[irreducible] def sha224 (m : Bytes) : Bytes := sha2w32.hash (sha384Init.map (· % 2 ^ 32)) 28 m
@[irreducible] def sha256 (m : Bytes) : Bytes := sha2w32.hash (sha512Init.map (· / 2 ^ 32)) 32 m
@[irreducible] def sha384 (m : Bytes) : Bytes := sha2w64.hash sha384Init 48 m
@[irreducible] def sha512 (m : Bytes) : Bytes := sha2w64.hash sha512Init 64 m
@[irreducible] def sha512t256 (m : Bytes) : Bytes := sha2w64.hash sha512t256Init 32 m

/-! ## SHA-3 -/

/-- The message with its domain byte and its padding, for a rate in bytes. -/
def spongePad (rate dom : Nat) (m : Bytes) : Bytes :=
  let z := rate - 1 - m.length % rate
  if z = 0 then m ++ [BitVec.ofNat 8 (dom ||| 128)]
  else m ++ BitVec.ofNat 8 dom :: (List.replicate (z - 1) 0#8 ++ [0x80#8])

/-- Output of a sponge: `n` blocks of the rate. -/
def squeeze (rate : Nat) (k : KSlot) : Nat → Bytes
  | 0 => []
  | n + 1 => natLe rate k.toNat ++ squeeze rate (keccakF k) n

/-- The sponge of FIPS 202: rate in bytes, domain byte, message, output length. -/
def sponge (rate dom : Nat) (m : Bytes) (n : Nat) : Bytes :=
  let p := spongePad rate dom m
  let k := (List.range (p.length / rate)).foldl
    (fun k i => keccakF (k ^^^ BitVec.ofNat 1600 (leNat ((p.drop (rate * i)).take rate)))) 0#1600
  (squeeze rate k ((n + rate - 1) / rate)).take n

/-- SHA-3 of an output length in bytes, SHAKE128 and SHAKE256. -/
@[irreducible] def sha3 (n : Nat) (m : Bytes) : Bytes := sponge (200 - 2 * n) 0x06 m n
@[irreducible] def shake (bits : Nat) (m : Bytes) (n : Nat) : Bytes := sponge (200 - bits / 4) 0x1F m n

/-- SHA3-256 as a number of 256 bits, byte 0 the least significant, and SHA3-512. -/
def sha3_256 (m : Bytes) : BitVec 256 := BitVec.ofNat 256 (leNat (sha3 32 m))
def sha3_512 (m : Bytes) : Bytes := sha3 64 m

/-- The digest of an algorithm of R477; SHAKE gives the length asked. -/
def digestOf (alg : Nat) (m : Bytes) (n : Nat) : Bytes :=
  match alg with
  | 1 => sha224 m | 2 => sha256 m | 3 => sha384 m | 4 => sha512 m | 5 => sha512t256 m
  | 6 => sha3 28 m | 7 => sha3 32 m | 8 => sha3 48 m | 9 => sha3 64 m
  | 10 => shake 128 m n | 11 => shake 256 m n | _ => []

/-! ## KMAC -/

/-- The bytes of a number without leading zeros, at least one. -/
def shortBe (x : Nat) : Bytes := natBe (Nat.log2 x / 8 + 1) x

/-- left_encode and right_encode of SP 800-185. -/
def leftEncode (x : Nat) : Bytes := let b := shortBe x; BitVec.ofNat 8 b.length :: b
def rightEncode (x : Nat) : Bytes := let b := shortBe x; b ++ [BitVec.ofNat 8 b.length]

/-- encode_string and bytepad of SP 800-185. -/
def encodeString (s : Bytes) : Bytes := leftEncode (8 * s.length) ++ s
def bytepad (x : Bytes) (w : Nat) : Bytes :=
  let b := leftEncode w ++ x
  b ++ List.replicate ((w - b.length % w) % w) 0#8

/-- cSHAKE with a function name. -/
def cshake (bits : Nat) (m : Bytes) (n : Nat) (name cust : Bytes) : Bytes :=
  let rate := 200 - bits / 4
  sponge rate 0x04 (bytepad (encodeString name ++ encodeString cust) rate ++ m) n

/-- KMAC128 and KMAC256: key, data, customisation string, output bytes. -/
@[irreducible] def kmac (bits : Nat) (key data cust : Bytes) (n : Nat) : Bytes :=
  let rate := 200 - bits / 4
  cshake bits (bytepad (encodeString key) rate ++ data ++ rightEncode (8 * n)) n [0x4B#8, 0x4D#8, 0x41#8, 0x43#8] cust

/-- KMAC256 under a 256-bit key with 256 output bits, byte 0 the least significant (R390, R404). -/
def kmac256 (key : BitVec 256) (data cust : Bytes) : BitVec 256 :=
  BitVec.ofNat 256 (leNat (kmac 256 (natLe 32 key.toNat) data cust 32))

/-! ## HMAC and HKDF -/

/-- HMAC over a hash of block size `bs`. -/
def hmac (hash : Bytes → Bytes) (bs : Nat) (key m : Bytes) : Bytes :=
  let k := padTo bs (if bs < key.length then hash key else key)
  hash (k.map (· ^^^ 0x5C#8) ++ hash (k.map (· ^^^ 0x36#8) ++ m))

/-- The blocks of HKDF-Expand from the `i`-th on, `n` of them. -/
def hkdfBlocks (mac : Bytes → Bytes) (info : Bytes) : Nat → Nat → Bytes → Bytes
  | 0, _, _ => []
  | n + 1, i, t =>
    let x := mac (t ++ info ++ [BitVec.ofNat 8 i])
    x ++ hkdfBlocks mac info n (i + 1) x

/-- HKDF: hash bits 256 or 384, key, salt, info, output bytes (R279). -/
@[irreducible] def hkdf (bits : Nat) (key salt info : Bytes) (n : Nat) : Bytes :=
  let hash := if bits = 256 then sha256 else sha384
  let bs := if bits = 256 then 64 else 128
  let hl := bits / 8
  let prk := hmac hash bs (if salt.isEmpty then List.replicate hl 0#8 else salt) key
  (hkdfBlocks (hmac hash bs prk) info ((n + hl - 1) / hl) 1 []).take n

end Sys2Proof.Machine
end

