-- ==== Sys2Proof/Machine/KeyOps.lean ====
section
/-!
DEFINITION. The operations over the key table: handles and chains (R406, R421), the masked BODY (R417), the vault and
its records (R426 to R432), and the transitions of a slot (R416).
-/
namespace Sys2Proof.Machine

/-- A slot of the key table. -/
def State.slot (s : State) (i : Nat) : KeySlot := mget dfltSlot s.keys.slots i

/-- The state with a slot replaced. -/
def State.setSlot (s : State) (i : Nat) (k : KeySlot) : State :=
  { s with keys := { s.keys with slots := mset dfltSlot s.keys.slots i k } }

/-- The slot a handle names (R406). -/
def hIndex (h : Nat) : Nat := h / 65536 % 65536

/-- The generation a handle carries (R406). -/
def hGen (h : Nat) : Nat := h % 65536

/-- The handle of a slot's entry (R406). -/
def State.handleOf (s : State) (i : Nat) : Nat := i * 65536 + (s.slot i).gen

/-- The slot holds an entry that children may hang from (R421). -/
def KeySlot.live (k : KeySlot) : Bool := k.st == .valid || k.st == .lost

/-- The handle names an entry owned by the instance (R406, R407, check 5 of R22). -/
def State.handleOk (s : State) (inst h : Nat) : Bool :=
  let k := s.slot (hIndex h)
  decide (256 ≤ hIndex h) && k.gen == hGen h && k.live && k.owner == inst

/-- Every link from a slot up to its instance root passes, at most `n` links (R421). -/
def State.chainFrom (s : State) : Nat → Nat → Bool
  | 0, i => decide (i < 256)
  | n + 1, i =>
    if i < 256 then true
    else
      let p := (s.slot i).parent
      let k := s.slot (hIndex p)
      k.live && k.gen == hGen p && s.chainFrom n (hIndex p)

/-- The chain of a slot is current (R421). -/
def State.chainOk (s : State) (i : Nat) : Bool := s.chainFrom 16 i

/-- The KT syndrome details: instance and handle (R449). -/
def State.raiseKt (s : State) (b inst h : Nat) : State := s.raise blkKt b (at32 (inst % 256) 0) (BitVec.ofNat 32 h)

/-! ## The masked BODY -/

/-- The seed that masks a slot: below the pointer of a running pass the new one (R419). -/
def State.seedOf (s : State) (i : Nat) : BitVec 256 :=
  match s.keys.sweepAt with
  | some p => if i < p then s.keys.newSeed else s.keys.sweepSeed
  | none => s.keys.sweepSeed

/-- The mask of a slot (R417, R419). -/
def State.bodyMask (s : State) (i : Nat) : Bytes := natLe 32 (Config.slotMask (s.seedOf i) i).toNat

/-- XOR of two 32-byte strings. -/
def xor32 (a b : Bytes) : Bytes := (List.range 32).map fun k => a.getD k 0#8 ^^^ b.getD k 0#8

/-- The key bytes of an inline entry. -/
def State.inlineKey (s : State) (i : Nat) : Bytes := (xor32 (s.slot i).body (s.bodyMask i)).take (s.slot i).klen

/-- BODY of an inline key: the key bytes, then zeros, masked (R410, R417). -/
def State.maskedBody (s : State) (i : Nat) (key : Bytes) : Bytes := xor32 (padTo 32 key) (s.bodyMask i)

/-! ## The vault -/

/-- The value of a root. -/
def Root.val (r : Root) : BitVec 256 := r.share0 ^^^ r.share1

/-- The vault root in effect; none in SCRAP, or where the root is lost (R403). -/
def State.vaultRoot (s : State) : Option (BitVec 256) :=
  match s.lc with
  | .raw => some Config.testRoot
  | .test => some Config.testRoot
  | .mfg => s.otp.krMfg.map Root.val
  | .owned => s.bbram.krOwn.map Root.val
  | .rma => s.bbram.krRma.map Root.val
  | .scrap => none

/-- The customisation string of a record key (R404). -/
def akVault : Bytes := [0x41#8, 0x4B#8, 0x2D#8, 0x56#8, 0x41#8, 0x55#8, 0x4C#8, 0x54#8]

/-- Header bytes 0 to 63 of a vault record (R429). -/
def recordHeader (k : KeySlot) (h : Nat) (saved : Bool) (seq era epoch : Nat) (boot : BitVec 64) (iv : BitVec 96) :
    Bytes :=
  natLe 4 0x31564B41 ++ natLe 2 1 ++ natLe 1 k.type ++ natLe 1 (b2n saved) ++ natLe 4 h ++ natLe 4 seq
    ++ natLe 4 (if saved then era else 0) ++ natLe 4 (if saved then epoch else 0) ++ natLe 1 k.owner ++ natLe 1 k.set
    ++ natLe 2 k.rctr ++ natLe 4 k.attr.toNat ++ natLe 4 k.klen ++ natLe 8 (if saved then 0 else boot.toNat)
    ++ natLe 8 (if k.rctr = 0xFFFF then 0 else k.treeTag) ++ natLe 12 iv.toNat

/-- A sealed record: header, sealed body and tag (R404, R429). -/
def sealRecord (root : BitVec 256) (hdr : Bytes) (iv : BitVec 96) (key : Bytes) : Bytes :=
  let rk := kmac256 root (hdr.take 52) akVault
  hdr ++ padTo (key.length + 16) (gcmSeal rk iv hdr key)

/-- The plaintext of a record, where its tag verifies (R404, R429). -/
def openRecord (root : BitVec 256) (r : Bytes) : Option Bytes :=
  let hdr := r.take 64
  let rk := kmac256 root (hdr.take 52) akVault
  (gcmOpen rk (BitVec.ofNat 96 (leAt r 52 12)) hdr (r.drop 64)).map fun p => padTo (leAt r 32 4) p

/-- The granules a record of a key of `klen` bytes takes (R427). -/
def granules (klen : Nat) : Nat := (80 + klen + 1023) / 1024

/-- The DRAM address of the vault region, and its granules (R427). -/
def State.vaultBase (s : State) : Nat := (s.reg 0x500020).toNat + (s.reg 0x500024).toNat * 2 ^ 32
def State.vaultSize (s : State) : Nat := fld (s.reg 0x500028) 0 13 * 1024

/-- The DRAM vault is enabled (R427). -/
def State.vaultEn (s : State) : Bool := bit32 (s.reg 0x500004) 0

/-- The granule intervals in use: first granule and count. -/
def State.vaultUsed (s : State) : List (Nat × Nat) :=
  (s.keys.slots.filter fun e => e.2.loc == 1 && e.2.st != .free && e.2.st != .retired).map fun e =>
    ((e.2.addr - s.vaultBase) / 1024, granules e.2.klen)

/-- Granules in use. -/
def State.vaultUsedCount (s : State) : Nat := s.vaultUsed.foldl (fun n e => n + e.2) 0

/-- `n` granules from granule `g` on are free and inside the region. -/
def State.vaultFits (s : State) (g n : Nat) : Bool :=
  decide (g + n ≤ s.vaultSize) && s.vaultUsed.all fun e => decide (g + n ≤ e.1) || decide (e.1 + e.2 ≤ g)

/-- The lowest place for `n` granules (log entry 16). -/
def State.vaultPlace (s : State) (n : Nat) : Option Nat :=
  ((0 :: s.vaultUsed.map fun e => e.1 + e.2).filter fun g => s.vaultFits g n).foldl
    (fun b g => match b with | none => some g | some x => some (min x g)) none

/-! ## Transitions of a slot (R416) -/

/-- The owner's used count (R428). -/
def State.usedCount (s : State) (inst : Nat) : Nat :=
  (s.keys.slots.filter fun e => decide (256 ≤ e.1) && e.2.owner == inst &&
    (e.2.st == .reserved || e.2.live)).length

/-- The lowest FREE slot from 256 on, looking at `n` slots (log entry 16). -/
def State.findFree (s : State) : Nat → Nat → Option Nat
  | 0, _ => none
  | n + 1, i => if (s.slot i).st == .free then some i else s.findFree n (i + 1)

/-- A FREE slot for a new entry. -/
def State.freeSlot (s : State) : Option Nat := s.findFree 65280 256

/-- FREE slots (R449). -/
def State.freeCount (s : State) : Nat :=
  65280 - (s.keys.slots.filter fun e => decide (256 ≤ e.1) && e.2.st != .free).length

/-- A RESERVED slot returns FREE with its GEN unchanged (R416). -/
def State.unreserve (s : State) (i : Nat) : State :=
  if (s.slot i).st == .reserved then s.setSlot i { dfltSlot i with gen := (s.slot i).gen } else s

/-- An entry is destroyed, reclaimed or passed over: FREE with GEN + 1, or RETIRED (R408, R416). -/
def State.freeEntry (s : State) (i : Nat) : State :=
  let k := s.slot i
  if k.gen = 0xFFFF then
    (s.setSlot i { dfltSlot i with st := .retired, gen := 0xFFFF }).raiseKt 9 k.owner (i * 65536 + k.gen)
  else s.setSlot i { dfltSlot i with gen := k.gen + 1 }

/-- Frees entries and counts each as a destruction (R449). -/
def State.destroyAll (s : State) : List Nat → State
  | [] => s
  | i :: t =>
    let s := s.freeEntry i
    State.destroyAll { s with keys := { s.keys with cntDestroy := s.keys.cntDestroy + 1#32 } } t

/-- The number of OTP ERA bits set is kept by the life-cycle controller; the KT reads it (R438). -/
def State.markLost (s : State) (i b : Nat) : State :=
  let k := s.slot i
  (s.setSlot i { k with st := .lost }).raiseKt b k.owner (s.handleOf i)

/-! ## DRAM -/

/-- Bytes of DRAM present: the channels that trained (R496, R662). -/
def State.dramSize (s : State) : Nat :=
  ((if s.gov.ok0 then s.gov.gib0 else 0) + (if s.gov.ok1 then s.gov.gib1 else 0)) * 2 ^ 30

/-- A DRAM read parity error on a channel and byte lane (R580, R662). -/
def State.raiseMemParity (s : State) (ch lane addr : Nat) : State :=
  s.raise blkMem ch (at32 lane 8 ||| at32 ch 0) (BitVec.ofNat 32 addr)

/-- An access beyond the DRAM present (R590). -/
def State.dramMiss (s : State) (addr : Nat) : State := s.raise blkMem 3 0#32 (BitVec.ofNat 32 addr)

/-- Reads `n` bytes of DRAM; beyond the DRAM present there are none, and MEM_RANGE is raised (R590). -/
def State.dramRead (s : State) (a n : Nat) : Bytes × State :=
  if a + n ≤ s.dramSize then (rdBytes s.dram a n, s) else ([], s.dramMiss a)

/-- Writes bytes of DRAM; beyond the DRAM present nothing is written, and MEM_RANGE is raised (R590). -/
def State.dramWrite (s : State) (a : Nat) (b : Bytes) : State :=
  if a + b.length ≤ s.dramSize then { s with dram := wrBytes s.dram a b } else s.dramMiss a

/-- The longest key whose record is at most 16 KiB (R427, R429). -/
abbrev maxKey : Nat := 16304

/-- The read met a parity error. -/
def recParity (r : HostRead) : Bool :=
  match r with
  | .parity _ _ _ => true
  | _ => false

/-- Seals the key of a slot into its granules of DRAM; none when the IV reserve is empty or no root is in force
(R404, R429, R430, R468). -/
def State.sealSlot (s : State) (i : Nat) (key : Bytes) : Option State :=
  match s.takeIv, s.vaultRoot with
  | some (iv, s), some root =>
    let k := s.slot i
    let seq := s.keys.seqCtr
    let k := { k with seq := seq, rlen := 80 + k.klen }
    let r := sealRecord root (recordHeader k (s.handleOf i) false seq 0 0 s.keys.bootId iv) iv key
    let s := s.dramWrite k.addr r
    some (State.setSlot { s with keys := { s.keys with seqCtr := (seq + 1) % 2 ^ 32 } } i k)
  | _, _ => none

/-- The byte length and the bit length of a number without leading zeros. -/
def byteLen (n : Nat) : Nat := if n = 0 then 0 else Nat.log2 n / 8 + 1
def bitLen (n : Nat) : Nat := if n = 0 then 0 else Nat.log2 n + 1

/-- Signing opcode, height, hash bytes and length of the stored chain in the bytes of a tree entry (log entry 21). -/
def treeShape (b : Bytes) : Nat × Nat × Nat × Nat := (leAt b 1 1, leAt b 2 1, leAt b 3 1, leAt b 6 2)

/-- What an entry made from key bytes carries for its type: a tree's shape, a curve record's sizes (R304, R410), the exponent of
an RSA public key (R307). -/
def KeySlot.shaped (k : KeySlot) (key : Bytes) : KeySlot :=
  if k.type = 0x18 then
    let t := treeShape key
    { k with tset := t.1, height := t.2.1, tn := t.2.2.1, chain := t.2.2.2 }
  else if k.type = 0x34 then
    let f := (k.klen - 1) / 6
    { k with fbytes := f, nbytes := byteLen (beNat ((key.drop (5 * f)).take f)), tset := bitLen (beNat (key.take f)) }
  else if k.type = 0x31 then { k with tset := beNat ((key.take k.klen).drop (k.klen - 4)) }
  else k

/-- A RESERVED or new slot takes its key and becomes VALID (R416): inline up to 32 bytes, else sealed. -/
def State.fillSlot (s : State) (i : Nat) (key : Bytes) : Option State :=
  let s := s.setSlot i ((s.slot i).shaped key)
  let k := s.slot i
  if k.klen ≤ 32 then
    some (s.setSlot i { k with st := .valid, loc := 0, body := s.maskedBody i key })
  else (s.sealSlot i key).map fun s => s.setSlot i { s.slot i with st := .valid }

/-- What reading a key for a call gives. -/
inductive KeyRead
  | ok (key : Bytes) (s : State)
  /-- The call completes with this status (R432). -/
  | fail (status : Nat) (s : State)

/-- The checks of R430 on a live record, and its opening. -/
def State.openLive (s : State) (i : Nat) (r : Bytes) : Option Bytes :=
  let k := s.slot i
  if leAt r 8 4 = s.handleOf i && leAt r 12 4 = k.seq && leAt r 36 8 = s.keys.bootId.toNat && leAt r 7 1 = 0 then
    s.vaultRoot.bind fun root => openRecord root r
  else none

/-- One delivery of the key table's mask generator, reseeded every 4,096 deliveries while the wire serves (R418). -/
def State.countDelivery (s : State) : State :=
  let n := s.keys.deliveries + 1
  if 4096 ≤ n then
    match s.draw256 with
    | some (x, s) => { s with keys := { s.keys with deliveries := 0, maskSeed := x } }
    | none => { s with keys := { s.keys with deliveries := n } }
  else { s with keys := { s.keys with deliveries := n } }

/-- One unsealing of the Sealing Unit for a delivery (R418). -/
def State.countUnseal (s : State) : State := { s with keys := { s.keys with unseals := s.keys.unseals + 1 } }

/-- Opens the DRAM record of an entry; one that fails makes the entry LOST (R432). -/
def State.readDramKey (s : State) (i : Nat) : KeyRead :=
  let k := s.slot i
  let r := s.dramRead k.addr k.rlen
  match r.2.openLive i r.1 with
  | some p => .ok p r.2.countUnseal
  | none => .fail 0x09 (r.2.markLost i 1)

/-- The key table's random bytes of the current delivery (R418). -/
def State.freshMask (s : State) (n : Nat) : Bytes := (List.range n).map fun j => Config.deliverMask s.keys.maskSeed s.keys.deliveries j

/-- XOR of two byte strings, as long as the first. -/
def xorBytes (a b : Bytes) : Bytes := (List.range a.length).map fun j => a.getD j 0#8 ^^^ b.getD j 0#8

/-- The two shares of a key of slot `i` as they are delivered: of an inline key BODY and its mask, the same fresh bytes XORed into
both; of a vault key those that the Sealing Unit unseals it into (R417, R418). -/
def State.keyShares (s : State) (i : Nat) (key : Bytes) : Bytes × Bytes :=
  let n := key.length
  let m := if (s.slot i).loc = 0 then xorBytes (s.freshMask n) (s.bodyMask i)
           else (List.range n).map fun j => Config.unsealMask s.keys.unseals j
  (xorBytes key m, m)

/-- Two shares of bytes that are no key of the table, under fresh bytes of the mask generator. -/
def State.freshShares (s : State) (b : Bytes) : Bytes × Bytes := (xorBytes b (s.freshMask b.length), s.freshMask b.length)

/-- Reads the key of an entry for a call: inline, from its DRAM record, or from the host record read for it
(R417, R418, R431, R432). `rec` is what the read of its record gave, `busError` for a window miss. -/
def State.readKey (s : State) (i : Nat) (rec : HostRead) : KeyRead :=
  let k := s.slot i
  if k.st == .lost then .fail 0x09 (if k.loc = 0 then s.raiseKt 0 k.owner (s.handleOf i) else s)
  else if k.loc = 0 then
    if k.bad || recParity rec then .fail 0x09 (s.markLost i 0) else .ok (s.inlineKey i) s.countDelivery
  else if k.loc = 1 then
    match rec with
    | .parity ch lane twice =>
      let s := s.raiseMemParity (b2n ch) lane.toNat k.addr
      if twice then .fail 0x09 (s.markLost i 1) else s.readDramKey i
    | _ => s.readDramKey i
  else match rec with
    | .busError => .fail 0x10 s
    | .failed _ => .fail 0x10 s
    | .parity _ _ _ => .fail 0x10 s
    | .ok r => match s.openLive i (padTo k.rlen r) with
      | some p => .ok p s.countUnseal
      | none => .fail 0x06 (s.raiseKt 1 k.owner (s.handleOf i))

end Sys2Proof.Machine
end

