-- ==== Sys2Proof/Machine/Operands.lean ====
section
/-!
DEFINITION. The operands of the engine instructions: registers, vector forms and share groups, the active elements, the
data address map with its checks, and the CSM as an engine sees it.
-/
namespace Sys2Proof.Machine

/-! ## Registers -/

/-- Scalar register `n`; s0 reads as 0 (R49). -/
def Engine.sreg (e : Engine) (n : Nat) : W64 := if n = 0 then 0#64 else mget (fun _ => 0#64) e.sregs n

/-- A write of a place sets correct parity there (R579). -/
def Engine.mend (e : Engine) (p : ParityPlace) : Engine := { e with badParity := e.badParity.filter fun x => x != p }

/-- Writes scalar register `n`; a write of s0 is discarded (R49). -/
def Engine.setSreg (e : Engine) (n : Nat) (v : W64) : Engine :=
  if n = 0 then e else { e.mend (.sreg n) with sregs := mset (fun _ => 0#64) e.sregs n v }

/-- Predicate register `n`; p0 reads as all ones (R52). -/
def Engine.preg (e : Engine) (n : Nat) : PReg :=
  if n = 0 then BitVec.allOnes 512 else mget (fun _ => 0#512) e.pregs n

/-- Writes predicate register `n`; a write of p0 is discarded (R52). -/
def Engine.setPreg (e : Engine) (n : Nat) (v : PReg) : Engine :=
  if n = 0 then e else { e.mend (.preg n) with pregs := mset (fun _ => 0#512) e.pregs n v }

/-- Vector register `n`. -/
def Engine.vreg (e : Engine) (n : Nat) : VReg := mget (fun _ => 0#4096) e.vregs n

/-- Writes vector register `n`. -/
def Engine.setVreg (e : Engine) (n : Nat) (v : VReg) : Engine :=
  { e.mend (.vreg n) with vregs := mset (fun _ => 0#4096) e.vregs n v }

/-- Keccak state slot `n` (R164). -/
def Engine.kslot (e : Engine) (n : Nat) : KSlot := mget (fun _ => 0#1600) e.kcu n

/-- Writes Keccak state slot `n`. -/
def Engine.setKslot (e : Engine) (n : Nat) (v : KSlot) : Engine :=
  { e with kcu := mset (fun _ => 0#1600) e.kcu n v }

/-- Modulus slot Q`n` (R132). -/
def Engine.qslot (e : Engine) (n : Nat) : Option ModSlot := mget (fun _ => none) e.qslots n

/-- Writes modulus slot Q`n`. -/
def Engine.setQslot (e : Engine) (n : Nat) (v : Option ModSlot) : Engine :=
  { e with qslots := mset (fun _ => none) e.qslots n v }

/-- Field slot G`n`: its polynomial (R138). -/
def Engine.gslot (e : Engine) (n : Nat) : Option Nat := mget (fun _ => none) e.gslots n

/-- Writes field slot G`n`. -/
def Engine.setGslot (e : Engine) (n : Nat) (v : Option Nat) : Engine :=
  { e with gslots := mset (fun _ => none) e.gslots n v }

/-- Stores an element count in VL; above 512 it stores 512 (R53). -/
def Engine.setVl (e : Engine) (n : Nat) : Engine := { e with vl := min n 512 }

/-- IMEM word `n`. -/
def Engine.imemWord (e : Engine) (n : Nat) : W64 := mget (fun _ => 0#64) e.imem n

/-! ## Vector forms -/

/-- The element width a W field encodes (R111). -/
def widthOf (c : BitVec 2) : Nat := 8 * 2 ^ c.toNat

/-- The element count of a form (R112). -/
def countOf (w : Nat) (pr : Bool) : Nat := (if pr then 8192 else 4096) / w

/-- The active limit (R112). -/
def Engine.limit (e : Engine) (w : Nat) (pr : Bool) : Nat := min e.vl (countOf w pr)

/-- Whether element `i` is active (R112). -/
def Engine.active (e : Engine) (w : Nat) (pr : Bool) (pm : BitVec 3) (i : Nat) : Bool :=
  decide (i < e.limit w pr) && (e.preg pm.toNat).getLsbD i

/-- A register or pair as one vector (R51). -/
def Engine.wide (e : Engine) (pr : Bool) (r : Nat) : Wide :=
  if pr then (e.vreg (r + 1) ++ e.vreg r).setWidth 8192 else (e.vreg r).setWidth 8192

/-- Writes a register or pair. -/
def Engine.setWide (e : Engine) (pr : Bool) (r : Nat) (v : Wide) : Engine :=
  let e := e.setVreg r (v.setWidth 4096)
  if pr then e.setVreg (r + 1) ((v >>> 4096).setWidth 4096) else e

/-- The registers a form of base `r` covers. -/
def formRegs (pr : Bool) (r : Nat) : List Loc := if pr then [.v r, .v (r + 1)] else [.v r]

/-- PR is legal for a width, and every vector field named is even in pair form (R51, R111). -/
def pairOk (pr : Bool) (w : BitVec 2) (regs : List (BitVec 5)) : Bool :=
  !pr || (w != 0#2 && regs.all fun r => !r.getLsbD 0)

/-- The vector, modulus and immediate fields of a VV word that an instruction may leave non-zero. -/
inductive VField
  | vd | va | vb | vc | ss | ms | imm | pm
deriving DecidableEq, Repr

/-- The zero field is 0: of an instruction whose rule does not ask for zeros in the fields it does not use, those fields are
not looked at (R109, R110; log entry 95). -/
def vvFree (f : VV) : Bool := f.zero == 0#2

/-- Every field not used is 0, the zero field included (R109, R129, R157, R165). -/
def vvOnly (f : VV) (used : List VField) : Bool :=
  f.zero == 0#2
    && (used.contains .vd || f.vd == 0#5) && (used.contains .va || f.va == 0#5)
    && (used.contains .vb || f.vb == 0#5) && (used.contains .vc || f.vc == 0#5)
    && (used.contains .ss || f.ss == 0#5) && (used.contains .ms || f.ms == 0#3)
    && (used.contains .imm || f.imm == 0#16) && (used.contains .pm || f.pm == 0#3)

/-! ## Share groups (R150) -/

/-- The number of shares of an order: 1 unmasked, 2 at d1, 3 at d2. -/
def sharesOf (ord : Nat) : Nat := ord + 1

/-- The base register of share `j` of a group. -/
def shareReg (pr : Bool) (b j : Nat) : Nat := if pr then b + 2 * j else b + j

/-- The alignment and range of a group base (R150); at order 0 a group is a register or pair. -/
def groupOk (ord : Nat) (pr : Bool) (b : BitVec 5) : Bool :=
  let b := b.toNat
  match ord, pr with
  | 0, false => true
  | 0, true => b % 2 == 0
  | 1, false => b % 2 == 0
  | 1, true => b % 4 == 0
  | 2, false => b % 3 == 0 && b + 2 ≤ 29
  | 2, true => b % 6 == 0 && b + 5 ≤ 29
  | _, _ => false

/-- The registers of a group. -/
def groupRegs (ord : Nat) (pr : Bool) (b : Nat) : List Loc :=
  (List.range (sharesOf ord)).flatMap fun j => formRegs pr (shareReg pr b j)

/-- The shares of a group, share 0 first. -/
def Engine.shares (e : Engine) (ord : Nat) (pr : Bool) (b : Nat) : List Wide :=
  (List.range (sharesOf ord)).map fun j => e.wide pr (shareReg pr b j)

/-- Writes shares into a group, from share `j` on. -/
def Engine.setShares (e : Engine) (pr : Bool) (b : Nat) : Nat → List Wide → Engine
  | _, [] => e
  | j, v :: t => Engine.setShares (e.setWide pr (shareReg pr b j) v) pr b (j + 1) t

/-! ## Moduli (R131) -/

/-- The modulus MS selects at a width code; none where the word is illegal (R131, R133). -/
def Engine.modulus (e : Engine) (ms : BitVec 3) (w : BitVec 2) : Option Nat :=
  match ms.toNat with
  | 0 => if w == 1#2 then some 3329 else none
  | 1 => if w == 2#2 then some 8380417 else none
  | 2 => if w == 1#2 then some 12289 else none
  | 3 => none
  | n + 4 => match e.qslot n with
    | some q => if q.w == w.toNat then some q.q else none
    | none => none

/-! ## The data address map (R57 to R60, R64, R190) -/

/-- A 64-bit base register plus a sign-extended offset (R115). -/
def effAddr (b : W64) (off : W64) : Nat := (b + off).toNat

/-- Whether `[a, a + n)` lies in DMEM. -/
def inDmem (a n : Nat) : Bool := decide (a + n ≤ 0x20000)

/-- Whether `[a, a + n)` lies in CSM. -/
def inCsm (a n : Nat) : Bool := decide (0x100000 ≤ a) && decide (a + n ≤ 0x300000)

/-- Bank and frame offset of byte `j` of an extent (R197). -/
def extPos (r : Resv) (j : Nat) : Nat × Nat :=
  if r.place.testBit 7 then ((r.place % 8 + j / 512) % 8, r.offset + 512 * (j / 4096) + j % 512)
  else (r.place % 8, r.offset + j)

/-- The byte of an extent that lies at frame offset `o` of bank `b`, if one does (R197). -/
def extIndex (r : Resv) (b o : Nat) : Option Nat :=
  if o < r.offset then none
  else
    let d := o - r.offset
    if r.place.testBit 7 then
      let j := 4096 * (d / 512) + 512 * ((b + 8 - r.place % 8) % 8) + d % 512
      if j < r.length then some j else none
    else if b == r.place % 8 && d < r.length then some d else none

/-- Kinds of reservation that name CSM extents (R196). -/
def Resv.isExtent (r : Resv) : Bool := decide (1 ≤ r.kind) && decide (r.kind ≤ 4)

/-- The CSM offset of frame `f` of engine `en` in bank `b` (R188). -/
def frameBase (b en f : Nat) : Nat := b * 0x40000 + en * 0x2000 + f * 0x1000

/-- The CSM offset of byte `j` of an extent in a frame. -/
def extAddr (r : Resv) (en f j : Nat) : Nat := let p := extPos r j; frameBase p.1 en f + p.2

/-- An extent of a reservation list names bank `b` (R64). -/
def namesBank (l : List Resv) (b : Nat) : Bool :=
  l.any fun r => r.isExtent &&
    (if r.place.testBit 7 then (List.range ((r.length + 511) / 512)).any fun k => (r.place % 8 + k) % 8 == b
     else r.place % 8 == b)

/-- The resident score's reservation list names bank `b` (R64). -/
def Engine.namesBank (e : Engine) (b : Nat) : Bool := Machine.namesBank ((e.resident.map (·.resvs)).getD []) b

/-- The local beat in which an engine in a peal issues its next word. -/
def Engine.localBeat (e : Engine) : Nat := match e.peal with | some p => p.start + e.pealEc / 32 | none => 0

/-- The peal beat of the next word (R88). -/
def Engine.pealBeat (e : Engine) : Nat := e.pealEc / 32

/-- Whether the engine runs inside the schedule, not detached by the debugger (R97). -/
def Engine.scheduled (e : Engine) : Bool := e.mode == .run

/-- Why a CSM access of `n` bytes at CSM offset `o` by engine `en` is not performed (R64, R190). -/
def Engine.csmDenied (e : Engine) (en o n : Nat) : Option Cause :=
  match e.peal with
  | none => some .csmPhase
  | some p =>
    let b := o / 0x40000
    if !e.scheduled || e.pealEc % 32 != 0 || e.localBeat % 8 != (en + b) % 8 || !e.namesBank b then some .csmPhase
    else if (List.range n).all fun k =>
        let a := o + k
        let fb := frameBase b en p.frame
        decide (fb ≤ a) && decide (a < fb + 0x1000) &&
          p.var.resvs.any fun r => r.isExtent && (extIndex r b (a - fb)).isSome
      then none
    else some .addrRange

/-- Why a data access is refused before any effect: range, alignment, the constant region, then CSM rules
(R57, R58, R60, R64, R190). That range stands before alignment is the model's choice (log entry 99). -/
def Engine.denied (e : Engine) (en a n align : Nat) (store : Bool) : Option Cause :=
  if inDmem a n then
    if a % align != 0 then some .addrAlign
    else if store && decide (a < ((e.resident.map (·.constLen)).getD 0)) then some .constWrite
    else none
  else if inCsm a n then
    if a % align != 0 then some .addrAlign else e.csmDenied en (a - 0x100000) n
  else some .addrRange

/-- The refusals of a form that reaches DMEM only (R59), range before alignment (log entry 99). -/
def Engine.dmemDenied (e : Engine) (a n align : Nat) (store : Bool) : Option Cause :=
  if !inDmem a n then some .addrRange
  else if a % align != 0 then some .addrAlign
  else if store && decide (a < ((e.resident.map (·.constLen)).getD 0)) then some .constWrite
  else none

/-- A DMEM byte whose parity fails lies in `[a, a + n)` (R581). -/
def Engine.dmemBad (e : Engine) (a n : Nat) : Bool :=
  e.badParity.any fun p => match p with | .dmem x => decide (a ≤ x) && decide (x < a + n) | _ => false

/-- Writes DMEM bytes with correct parity (R579). -/
def Engine.dmemWrite (e : Engine) (a : Nat) (b : Bytes) : Engine :=
  { e with dmem := wrBytes e.dmem a b
           badParity := e.badParity.filter fun p => match p with
             | .dmem x => !(decide (a ≤ x) && decide (x < a + b.length)) | _ => true }

/-! ## CSM as an engine sees it (R65, R179, R218) -/

/-- Stores land in CSM, in order, with correct parity (R179, R579). -/
def Cluster.land (k : Cluster) (l : List CsmStore) : Cluster :=
  { k with csm := l.foldl (fun m x => wrByte m x.addr x.val) k.csm
           csmBad := k.csmBad.filter fun a => !l.any fun x => x.addr == a }

/-- The stores of earlier beats land (R179). -/
def Cluster.commit (k : Cluster) (beat : Nat) : Cluster :=
  { k.land (k.csmPend.filter fun x => decide (x.beat < beat)) with
    csmPend := k.csmPend.filter fun x => !decide (x.beat < beat) }

/-- Every store lands. -/
def Cluster.commitAll (k : Cluster) : Cluster := { k.land k.csmPend with csmPend := [] }

/-- A byte of `[o, o + n)` that `want` names fails its parity check where engine `i` loads it in its beat (R581). -/
def State.csmFails (s : State) (i o n : Nat) (want : Nat → Bool) : Bool :=
  (((s.cl (i / 32)).commit (s.eng i).localBeat).csmBad).any fun a =>
    decide (o ≤ a) && decide (a < o + n) && want (a - o)

/-- The byte at frame offset `o` of bank `b` belongs to a stream extent whose window is still open (R218). -/
def Engine.streamOpen (e : Engine) (b o : Nat) : Bool :=
  match e.peal with
  | none => false
  | some p => p.var.resvs.any fun r =>
      r.kind == 4 && (extIndex r b o).isSome && decide (r.winStart ≤ e.pealBeat) && decide (e.pealBeat < r.winEnd)

/-- `n` bytes that engine `i` loads from CSM offset `o` in its beat; a byte of an open stream extent is free. -/
def State.csmLoad (s : State) (i o n : Nat) : Bytes × State :=
  let e := s.eng i
  let c := i / 32
  let k := (s.cl c).commit e.localBeat
  let b := o / 0x40000
  let fb := match e.peal with | some p => frameBase b (i % 32) p.frame | none => 0
  let bytes := (List.range n).map fun j =>
    if e.streamOpen b (o + j - fb) then Config.freeByte (s.freeCtr + j) else rdByte k.csm (o + j)
  (bytes, (s.setCl c k).useFree n)

/-- A store of engine `i` to CSM: it lands at the end of its beat (R179). -/
def State.csmStore (s : State) (i o : Nat) (b : Bytes) : State :=
  let c := i / 32
  let k := s.cl c
  let beat := (s.eng i).localBeat
  s.setCl c { k with csmPend := k.csmPend ++
    (List.range b.length).map fun j => { beat := beat, addr := o + j, val := b.getD j 0#8 } }

end Sys2Proof.Machine
end

