-- ==== Sys2Proof/Machine/Calls.lean ====
section
/-!
DEFINITION. Time (R184, R185, R599), host windows (R31, R343, R344), and completions: how a call ends and how its entry
becomes ready (R365 to R374, R668).
-/
namespace Sys2Proof.Machine

/-! ## Time -/

/-- The factor r of R185 as numerator and denominator. -/
def capRatio : Nat → Nat × Nat
  | 1 => (5, 4)
  | 2 => (5, 3)
  | _ => (1, 1)

/-- The global beat at which local beat `b` of a cluster falls (R185). -/
def Cluster.globalOf (k : Cluster) (b : Nat) : Nat :=
  let r := capRatio k.capStep
  k.gRef + ((b - k.bRef) * r.1 + r.2 - 1) / r.2

/-- The local beat of a cluster at a global beat (R185). -/
def Cluster.localOf (k : Cluster) (g : Nat) : Nat :=
  let r := capRatio k.capStep
  k.bRef + (g - k.gRef) * r.2 / r.1

/-- Global beats in a second. -/
abbrev beatsPerSec : Nat := 39062500

/-- Time moves on to global beat `g'`, never back; OPSEC counts whole seconds (R184, R599). -/
def State.goTo (s : State) (g' : Nat) : State :=
  if g' ≤ s.g then s
  else
    let sub := s.evr.subsec + (g' - s.g)
    { s with g := g', evr := { s.evr with opsec := s.evr.opsec + sub / beatsPerSec, subsec := sub % beatsPerSec } }


/-! ## Host windows -/

/-- The register addresses of window `w` of an instance (R397). -/
def winReg (i w : Nat) : Nat := 0x10000 + 0x80 * i + 0x10 * w

/-- The 4 KiB page at number `p` lies in an enabled window of the instance with the bit for its direction (R343,
R344). -/
def State.pageOk (s : State) (i p : Nat) (write : Bool) : Bool :=
  (List.range 8).any fun w =>
    let a := winReg i w
    let base := ((s.reg a).toNat + (s.reg (a + 4)).toNat * 2 ^ 32) / 4096
    let n := (s.reg (a + 8)).toNat
    bit32 (s.reg (a + 12)) (if write then 1 else 0) && decide (base ≤ p) && decide (p < base + n)

/-- Every page of `[a, a + n)` passes (R31). -/
def State.windowOk (s : State) (i a n : Nat) (write : Bool) : Bool :=
  n == 0 || (decide (a + n ≤ 2 ^ 64) &&
    (List.range ((a + n - 1) / 4096 - a / 4096 + 1)).all fun k => s.pageOk i (a / 4096 + k) write)

/-- The syndrome details of an HIU source (R398). -/
def State.raiseHiu (s : State) (b i q idx : Nat) : State :=
  s.raise blkHiu b (at32 (i % 256) 18 ||| at32 (q % 16) 14) (at32 (idx % 65536) 0)

/-- An access before readiness that R544 does not answer; without power, or in PERST_N, nothing answers (R535, R544). -/
def State.bringupAccess (s : State) (i : Nat) : State :=
  if s.boot.power && !s.boot.perst then s.raiseHiu 28 i 0 0 else s

/-- A write to a register of PF BAR0: before readiness it raises HIU_BRINGUP_ACCESS and has no effect (R544). -/
def State.pfWrite (s : State) (f : State → State) : State := if s.boot.ready then f s else s.bringupAccess 0

/-- A counter register that wraps. -/
def State.bump (s : State) (a n : Nat) : State := s.setReg a (s.reg a + BitVec.ofNat 32 n)

/-- A request outside the windows is not issued: it is counted and HIU_WINDOW_MISS is raised (R31). -/
def State.windowMiss (s : State) (i q : Nat) : State := (s.bump 0x20C 1).raiseHiu 9 i q 0

/-- The source of a failed host read (R364, R402; log entry 114). -/
def readSource (e : ReadError) : Nat :=
  match e with
  | .unsupported => 15 | .abort => 15 | .poisoned => 13 | .timeout => 14

/-- A failed read of host memory is reported (R402). -/
def State.raiseRead (s : State) (i q : Nat) (r : HostRead) : State :=
  match r with
  | .failed e => s.raiseHiu (readSource e) i q 0
  | _ => s

/-! ## Completions -/

/-- The stored QP_CTRL and base registers of a queue lie in the instance's page (R397, R399). -/
def pageBase (i : Nat) : Nat := if i = 0 then 0x40000 else 0x100000000 + i * 0x40000

/-- The address of QP_CTRL(q) of an instance. -/
def qpReg (i q : Nat) : Nat := pageBase i + 0x1000 + 0x40 * q

/-- CMODE is BATCH (R368). -/
def State.batch (s : State) (i q : Nat) : Bool := bit32 (s.reg (qpReg i q)) 30

/-- The batch entry of a COMPLETE_HERE descriptor once every earlier descriptor is ready (R369). -/
def Queue.batchEntry (q : Queue) (c : Cpl) : Cpl :=
  let n := (c.index - q.batchFrom).toNat + 1
  let err := q.batchErr.any fun x => decide ((x - q.batchFrom).toNat < n)
  { c with cflags := c.cflags ||| 1 ||| (if err then 2 else 0), count := n }

/-- Index `a` comes before index `b` on the ring (R351). -/
def idxBefore (a b : BitVec 16) : Bool := decide ((b - a).toNat < 32768) && a != b

/-- Moves COMPLETE_HERE completions whose earlier descriptors are all ready, `n` at most (R369). -/
def Queue.flushHere (q : Queue) : Nat → Queue
  | 0 => q
  | n + 1 =>
    match q.hereWait.find? fun c =>
        !(q.notReady.any fun x => idxBefore x c.index) && !(q.hereWait.any fun d => idxBefore d.index c.index) with
    | none => q
    | some c =>
      Queue.flushHere { q with
        ready := q.ready ++ [q.batchEntry c]
        hereWait := q.hereWait.filter fun d => d.index != c.index
        batchFrom := c.index + 1#16
        batchErr := q.batchErr.filter fun x => idxBefore c.index x } n

/-- A completion becomes ready in its queue (R367 to R369, R668). -/
def Queue.makeReady (q : Queue) (batch : Bool) (c : Cpl) : Queue :=
  let q := { q with notReady := q.notReady.filter fun x => x != c.index }
  if !batch then { q with ready := q.ready ++ [c] }
  else
    let q := if c.status != 0 then { q with batchErr := q.batchErr ++ [c.index] } else q
    let q := if c.here then { q with hereWait := q.hereWait ++ [c] }
      else if c.status != 0 || c.okey0 != 0 || c.okey1 != 0 then { q with ready := q.ready ++ [c] } else q
    q.flushHere (q.hereWait.length + 1)

/-- 64 waiting completions stall a RUNNING queue (R372). -/
def State.stallCheck (s : State) (i q : Nat) : State :=
  let x := s.queue i q
  if x.st == .running && decide (64 ≤ x.ready.length) then
    (s.setQueue i q { x with st := .stalled }).raiseHiu 7 i q 0
  else s

/-- The frames of a call are cleared before any staging into them (R191). -/
def clearFrame (m : Map Byte) (en f : Nat) : Nat → Map Byte
  | 0 => m
  | b + 1 => mclear (clearFrame m en f b) (frameBase b en f) 0x1000

/-- A CSM offset lies in frame `f` of engine `en` (R188). -/
def inFrame (en f a : Nat) : Bool := a % 0x40000 / 0x1000 == 2 * en + f

/-- The idle count of a vector domain starts again where a call that declares vector use leaves its engines (R83). -/
def State.vecLeft (s : State) : List (Nat × Nat) → State
  | [] => s
  | p :: t =>
    let s := if ((s.eng p.1).resident.map (·.vec)).getD false then
      s.setCl (p.1 / 32) { s.cl (p.1 / 32) with idleSince := s.g } else s
    s.vecLeft t

/-- Frees one frame of an engine and clears it (R189, R191). -/
def State.freeFrame (s : State) (i f : Nat) : State :=
  let x := (s.cl (i / 32)).commitAll
  let e := s.eng i
  (s.setCl (i / 32) { x with
    csm := clearFrame x.csm (i % 32) f 8
    csmBad := x.csmBad.filter fun a => !inFrame (i % 32) f a }).setEng i { e with frames := e.frames &&& ~~~(1#2 <<< f) }

/-- Frees frames. -/
def State.freeFrames (s : State) : List (Nat × Nat) → State
  | [] => s
  | p :: t => (s.freeFrame p.1 p.2).freeFrames t

/-- Frees the frames that a list of completions still holds. -/
def State.freeCpls (s : State) : List Cpl → State
  | [] => s
  | c :: t => (s.freeFrames c.frees).freeCpls t

/-- A completion becomes ready; in a Function Level Reset it is discarded (R386). One that gets no entry of its own
frees its frames now (R368, R189). -/
def State.complete (s : State) (i q : Nat) (c : Cpl) : State :=
  let x := s.queue i q
  if (s.inst i).st == .inFlr then
    (s.setQueue i q { x with notReady := x.notReady.filter fun y => y != c.index }).freeFrames c.frees
  else
    let own := !(s.batch i q) || c.status != 0 || c.okey0 != 0 || c.okey1 != 0 || c.here
    let s := if own then s else s.freeFrames c.frees
    (s.setQueue i q (x.makeReady (s.batch i q) c)).stallCheck i q

/-! ## Calls -/

/-- A call by its key. -/
def State.call (s : State) (k : Nat) : Option Call := mget (fun _ => none) s.sch.calls k

/-- The state with a call replaced, or removed. -/
def State.setCall (s : State) (k : Nat) (c : Option Call) : State :=
  { s with sch := { s.sch with calls := mset (fun _ => none) s.sch.calls k c } }

/-- Every live call with its key. -/
def State.allCalls (s : State) : List (Nat × Call) :=
  s.sch.calls.filterMap fun e => e.2.map fun c => (e.1, c)

/-- Fields of the operand block of a call (R243, R356). -/
def Call.opcode (c : Call) : Nat := leAt c.desc 0 1
def Call.flags (c : Call) : Nat := leAt c.desc 1 1
def Call.aux (c : Call) : Nat := leAt c.desc 2 2
def Call.inLen (c : Call) : Nat := leAt c.desc 4 4
def Call.inAddr (c : Call) : Nat := leAt c.desc 8 8
def Call.outLenMax (c : Call) : Nat := leAt c.desc 16 4
def Call.outAddr (c : Call) : Nat := leAt c.desc 20 8
def Call.keyHandle (c : Call) (n : Nat) : Nat := leAt c.desc (28 + 4 * n) 4
def Call.param (c : Call) : Bytes := (c.desc.drop 52).take 10

/-- The completion of a call (R365). -/
def Call.cpl (c : Call) (status : Nat) : Cpl where
  index := c.index
  status := status
  opcode := c.opcode
  cflags := if c.paired then 4 else 0
  outBytes := if status = 0 then c.outLen else 0
  okey0 := if status = 0 then ((c.made.find? fun p => p.1 == 0).map (·.2)).getD 0 else 0
  okey1 := if status = 0 then ((c.made.find? fun p => p.1 == 1).map (·.2)).getD 0 else 0
  count := 1
  here := c.flags % 2 == 1
  ownPlace := false
  frees := []

/-- What an unlisted reservation counter reads as. -/
def dfltCtr : Nat → ResCounter := fun _ => ResCounter.reset

/-- A stateful reservation counter. -/
def State.ctr (s : State) (n : Nat) : ResCounter := mget dfltCtr s.bbram.counters n

/-- The state with a reservation counter replaced. -/
def State.setCtr (s : State) (n : Nat) (c : ResCounter) : State :=
  { s with bbram := { s.bbram with counters := mset dfltCtr s.bbram.counters n c } }

/-- A counter that a call held returns free (R445). -/
def State.releaseCtr (s : State) (o : Option Nat) : State :=
  match o with
  | some n => if (s.ctr n).bound then s else s.setCtr n ResCounter.reset
  | none => s

/-- What a released call made is undone, as the call is not OK after all: its entries are freed, and the counter bound to its tree
(R24, R386, R445). -/
def State.unmake (s : State) (c : Call) : State :=
  let s := c.made.foldl (fun s m => s.freeEntry (hIndex m.2)) s
  match c.counter with
  | some n => if c.st == .released then s.setCtr n ResCounter.reset else s
  | none => s

/-- Returns every slot a call still has RESERVED (R24, R416). -/
def State.unreserveAll (s : State) : List OutKey → State
  | [] => s
  | o :: t => (s.unreserve o.slot).unreserveAll t

/-- The frames a call holds on its engines. -/
def Call.frees (c : Call) : List (Nat × Nat) := c.place.map fun h => (h.unit, h.frame)

/-- A call of an engine: library and user opcodes (R251). -/
def isEngineOp (op : Nat) : Bool := decide (op < 0xA8) || decide (0xC0 ≤ op)

/-- A call of a MAU (R301). -/
def isMauOp (op : Nat) : Bool := decide (0xB0 ≤ op) && decide (op < 0xC0)

/-- The key-port blocks of a call are cleared on the clusters that hold them (R61). -/
def State.freeBlocks (s : State) (k : Nat) : List Half → State
  | [] => s
  | h :: t =>
    let x := s.cl (h.unit / 32)
    State.freeBlocks (s.setCl (h.unit / 32) { x with kpb := x.kpb.filter fun p => p.call != k }) k t

/-- What a unit number without an entry reads as. -/
def dfltMau : Nat → Mau := fun _ => Mau.reset

/-- MAU `u`. -/
def State.mau (s : State) (u : Nat) : Mau := mget dfltMau s.maus u

/-- The state with a MAU replaced. -/
def State.setMau (s : State) (u : Nat) (m : Mau) : State := { s with maus := mset dfltMau s.maus u m }

/-- A half of a unit. -/
def Mau.half (m : Mau) (h : Nat) : MauHalf := if h = 0 then m.half0 else m.half1

/-- A unit with a half replaced. -/
def Mau.setHalf (m : Mau) (h : Nat) (x : MauHalf) : Mau := if h = 0 then { m with half0 := x } else { m with half1 := x }

/-- A half given back: the keys of a call that did not run are cleared (R288, R291). -/
def MauHalf.free (x : MauHalf) : MauHalf :=
  { x with call := none, staged := false, keys := [], scratch := []
           clearing := x.clearing || x.staged || !x.keys.isEmpty }

/-- Frees the halves of units that a call holds (R288). -/
def State.freeHalves (s : State) (k : Nat) : List Half → State
  | [] => s
  | h :: t =>
    let m := s.mau h.unit
    let x := m.half h.frame
    State.freeHalves (if x.call = some k then s.setMau h.unit (m.setHalf h.frame x.free) else s) k t

/-- The completions of a queue that wait leave no room for a further one; in a Function Level Reset none is kept (R372,
R386). -/
def State.heldBack (s : State) (c : Call) : Bool :=
  (s.inst c.inst).st != .inFlr && decide (64 ≤ (s.queue c.inst c.queue).ready.length)

/-- The end of a call: reserved slots and counters return (R24, R445), its places are freed now or with its completion
entry (R189), and its completion becomes ready (R226). Where 64 completions wait, it stays released until one more has room,
with the frame or half that holds a result (R372). -/
def State.endCall (s : State) (k status : Nat) (hold : Bool) : State :=
  match s.call k with
  | none => s
  | some c =>
    let s := if status = 0 then s else s.unreserveAll c.okeys
    let s := s.releaseCtr c.counter
    let mau := isMauOp c.opcode
    let wait := s.heldBack c
    let stay := wait && (hold || (mau && status == 0))
    let s := if stay then s else if mau then s.freeHalves k c.place else s.freeBlocks k c.place
    let s := if mau || hold then s else (s.freeFrames c.frees).vecLeft c.frees
    if wait then
      s.setCall k (some { c with
        st := .released, status := status, outLen := if status = 0 then c.outLen else 0, made := if status = 0 then c.made else []
        okeys := [], counter := none, pushed := true, inFifo := false, relG := s.g, due := s.g
        place := if stay then c.place else [] })
    else (s.setCall k none).complete c.inst c.queue { c.cpl status with frees := if hold && !mau then c.frees else [] }

end Sys2Proof.Machine
end

