-- ==== Sys2Proof/Machine/MauTime.lean ====
section
/-!
DEFINITION. The sizes and nominal times of MAU macro operations (R295, R301 to R308).
-/
namespace Sys2Proof.Machine

/-- PARAM byte `n` of a call. -/
def Call.pbyte (c : Call) (n : Nat) : Nat := leAt c.param n 1

/-- The modulus size of an RSA call in bits: PARAM, or the length of the key entry named (R302; record lengths: log
entry 17). -/
def State.rsaBits (s : State) (c : Call) : Nat :=
  let h := c.keyHandle 0
  if h = 0 then leAt c.param 0 2
  else
    let k := s.slot (hIndex h)
    if k.type = 0x31 then 8 * (k.klen - 4) else (k.klen - 4) * 16 / 7

/-- Bytes of a hash code of R302. -/
def hashLen (h : Nat) : Nat := [0, 32, 48, 64, 32, 48, 64].getD h 0

/-- The HASH field of AUX (R302). -/
def Call.hash (c : Call) : Nat := c.aux / 256 % 16

/-- Bytes of a field element of the curve a call names (R301, R303). -/
def State.curveF (s : State) (c : Call) : Nat :=
  match c.pbyte 0 with
  | 0 => 32
  | 1 => 48
  | 2 => 66
  | _ => (s.slot (hIndex (c.keyHandle 3))).fbytes

/-- Bytes of the order of the curve a call names (R301, R303). -/
def State.curveN (s : State) (c : Call) : Nat :=
  match c.pbyte 0 with
  | 0 => 32
  | 1 => 48
  | 2 => 66
  | _ => (s.slot (hIndex (c.keyHandle 3))).nbytes

/-- The smallest column of R306 that covers an RSA modulus. -/
def rsaColumn (k : Nat) : Nat :=
  if k ≤ 2048 then 0 else if k ≤ 3072 then 1 else if k ≤ 4096 then 2 else if k ≤ 8192 then 3 else 4

/-- The smallest column of R306 that covers a field of `w` bits. -/
def curveColumn (w : Nat) : Nat := if w ≤ 256 then 0 else if w ≤ 384 then 1 else if w ≤ 521 then 2 else 3

/-- Bits of the field of the curve a call names (R303, R306). -/
def State.curveW (s : State) (c : Call) : Nat :=
  match c.pbyte 0 with
  | 0 => 256
  | 1 => 384
  | 2 => 521
  | _ => (s.slot (hIndex (c.keyHandle 3))).tset

/-- The sizes of a MAU call at admission. The exponent is known where KEY0 names the public key (R295). -/
def State.mauSize (s : State) (c : Call) : MauSize :=
  { k := s.rsaBits c, f := s.curveF c, n := s.curveN c, w := s.curveW c
    e := if c.keyHandle 0 = 0 then none else some (s.slot (hIndex (c.keyHandle 0))).tset }

/-- C_mau of a macro operation whose exponent is `e` (R306, R307). A raw list has its list time (R319). -/
def Call.mauTime (c : Call) (e : Option Nat) : Nat :=
  let rk := rsaColumn c.size.k
  let ck := curveColumn c.size.w
  let pub := [5000, 10000, 18000, 70000, 270000].getD rk 0
  match c.opcode with
  | 0xB0 => (match leAt c.param 0 2 with
      | 2048 => 45000000 | 4096 => 420000000 | k => Config.rsaKeygenTime k)
  | 0xB1 => [150000, 480000, 1100000, 8000000, 62000000].getD rk 0
  | 0xB3 => [150000, 480000, 1100000, 8000000, 62000000].getD rk 0
  | 0xB2 => if (match e with | some x => decide (x ≤ 131072) | none => false) then pub else 2 * pub
  | 0xB4 => if (match e with | some x => decide (x ≤ 131072) | none => false) then pub else 2 * pub
  | 0xB5 => [60000, 140000, 320000, 500000].getD ck 0
  | 0xB6 => [75000, 170000, 380000, 600000].getD ck 0
  | 0xB7 => [110000, 250000, 560000, 880000].getD ck 0
  | 0xB8 => [70000, 160000, 360000, 570000].getD ck 0
  | 0xB9 => 2000000
  | _ => 0

/-- Global beats that `t` mc are charged as (R295). -/
def mauBeats (t : Nat) : Nat := (5 * t + 127) / 128

/-- V of the validation routine, in mc (R308). -/
def Call.mauV (c : Call) : Nat :=
  if c.opcode < 0xB5 then 64 + 2 * (c.size.k / 64) else [1200, 2000, 3600, 4800].getD (curveColumn c.size.w) 0

end Sys2Proof.Machine
end

