-- ==== Sys2Proof/Machine/Power.lean ====
section
/-!
DEFINITION. The vector-power domain of a cluster (R83 to R85, R39), leaving a peal and the fatal sources of a cluster
(R89, R106).
-/
namespace Sys2Proof.Machine

/-- The cluster is open to admission (R104). -/
def Cluster.inService (k : Cluster) : Bool := k.selftest == 0 && !k.fatal && !k.oos

/-- Engine `i` leaves its peal: it issues nothing further (R89, R232). An alarm takes the place of an earlier cause, since
it ends the call whatever came before (R25, R233). -/
def State.leavePeal (s : State) (i : Nat) (why : LeaveCause) : State :=
  let e := s.eng i
  if e.peal.isSome && (e.leave.isNone || why == .alarm) then s.setEng i { e with leave := some why, mode := .left } else s

/-- Every engine of cluster `c` leaves its peal, `n` engines looked at. -/
def State.leaveCluster (s : State) (c : Nat) (why : LeaveCause) : Nat → State
  | 0 => s
  | n + 1 => (s.leaveCluster c why n).leavePeal (32 * c + n) why

/-- A fatal source of a cluster: FATAL is set and its engines leave their peals (R106). -/
def State.clusterFatal (s : State) (c : Nat) : State :=
  (s.setCl c { s.cl c with fatal := true }).leaveCluster c .clusterFatal 32

/-- FORCE_ON and IDLE_HOLD of a cluster (R102). -/
def vpwrReg (c : Nat) : Nat := 0x200000 + c * 0x10000 + 0x200
def State.forceOn (s : State) (c : Nat) : Bool := bit32 (s.reg (vpwrReg c)) 31
def State.idleHold (s : State) (c : Nat) : Nat := fld (s.reg (vpwrReg c)) 0 20

/-- Global beats of a wake of 2,000 ec at the step in force (R84). -/
def Cluster.wakeBeats (k : Cluster) : Nat := let r := capRatio k.capStep; (2000 * r.1 + 32 * r.2 - 1) / (32 * r.2)

/-- Global beats that cover the window of 1 µs (R39). -/
abbrev wakeWindow : Nat := 40

/-- A further wake keeps the limit of two in any 1 µs (R39). -/
def State.wakeGrantable (s : State) : Bool :=
  decide ((s.sch.wakeTimes.filter fun t => decide (s.g < t + wakeWindow)).length < 2)

/-- The domain of a cluster starts to wake (R83). -/
def State.startWake (s : State) (c : Nat) : State :=
  let k := s.cl c
  let s := s.setCl c { k with vpwr := .waking, vpwrDue := s.g + k.wakeBeats, wakeReq := false }
  { s with sch := { s.sch with wakeTimes := (s.g :: s.sch.wakeTimes).take 2 } }

/-- A wake request under the table of R83. -/
def State.requestWake (s : State) (c : Nat) : State :=
  let k := s.cl c
  match k.vpwr with
  | .off => if s.wakeGrantable then s.startWake c else s.setCl c { k with wakeReq := true, held := k.held + 1#16 }
  | .gating => s.setCl c { k with wakeReq := true }
  | .waking => s
  | .on => s

/-- The held wake request of a cluster proceeds once the window has cleared (R39, R83). -/
def execWakeWindowClear (cluster : BitVec 4) (s : State) : Host.Outcome State Fault Refusal :=
  let c := cluster.toNat
  let k := s.cl c
  let s' := s.goTo ((s.sch.wakeTimes.getD 1 0) + wakeWindow)
  .next (if k.wakeReq && k.vpwr == .off then s'.startWake c else s)

/-- The wake count ends: the domain is ON with power-good, else it fails with a fatal source (R83, R84). -/
def execWakeCountDone (cluster : BitVec 4) (powerGood : Bool) (s : State) : Host.Outcome State Fault Refusal :=
  let c := cluster.toNat
  let k := s.cl c
  .next (if k.vpwr == .waking then
    let s := s.goTo k.vpwrDue
    if powerGood then s.setCl c { k with vpwr := .on, wakes := k.wakes + 1#16, idleSince := s.g }
    else ((s.setCl c { k with vpwr := .off }).raise c 20 0#32 0#32).clusterFatal c
  else s)

/-- A call that declares vector use runs or is planned on the cluster (R83). -/
def State.vecWork (s : State) (c : Nat) : Bool :=
  s.allCalls.any fun e => isEngineOp e.2.opcode && e.2.place.any fun h =>
    h.unit / 32 == c && h.res.isNone && (((s.eng h.unit).resident.map (·.vec)).getD false)

/-- The vector state of an engine is lost when its domain leaves ON (R83, R133). -/
def Engine.gate (e : Engine) : Engine :=
  { e with vregs := [], pregs := [], kcu := [], qslots := [], gslots := []
           badParity := e.badParity.filter fun p => match p with | .vreg _ => false | .preg _ => false | _ => true }

/-- Applies a change to `n` engines of a cluster, from the first on. -/
def State.mapEngines (s : State) (c : Nat) (f : Engine → Engine) : Nat → State
  | 0 => s
  | n + 1 => let s := s.mapEngines c f n
             s.setEng (32 * c + n) (f (s.eng (32 * c + n)))

/-- IDLE_HOLD beats without vector work: the domain clears and starts gating (R83). -/
def execVectorIdle (cluster : BitVec 4) (s : State) : Host.Outcome State Fault Refusal :=
  let c := cluster.toNat
  let k := s.cl c
  .next (if k.vpwr == .on && !s.forceOn c && !s.vecWork c then
    let s := s.goTo (k.globalOf (k.localOf k.idleSince + s.idleHold c))
    (s.setCl c { k with vpwr := .gating, vpwrDue := k.globalOf (k.localOf s.g + 5) }).mapEngines c Engine.gate 32
  else s)

/-- The gating beats have elapsed: the domain is OFF, and a request that waited is judged (R83). -/
def execGatingDone (cluster : BitVec 4) (s : State) : Host.Outcome State Fault Refusal :=
  let c := cluster.toNat
  let k := s.cl c
  .next (if k.vpwr == .gating then
    let s := (s.goTo k.vpwrDue).setCl c { k with vpwr := .off, wakeReq := false }
    if k.wakeReq then s.requestWake c else s
  else s)

/-- FORCE_ON written: set, it raises a wake request; clear, it starts the idle count (R83). -/
def execForceOn (cluster : BitVec 4) (on : Bool) (s : State) : Host.Outcome State Fault Refusal :=
  let c := cluster.toNat
  let a := vpwrReg c
  .next (s.pfWrite fun s =>
    let s := s.setReg a (setFld (s.reg a) 31 1 (b2n on))
    if on then s.requestWake c else s.setCl c { s.cl c with idleSince := s.g })

end Sys2Proof.Machine
end

