-- ==== Sys2Proof/Machine/ScoreImage.lean ====
section
/-!
DEFINITION. The score image and its verification (R193 to R202), and the store.
-/
namespace Sys2Proof.Machine

/-- The header fields of an image (R194). -/
structure ScoreHdr where
  flags : Nat
  codeWords : Nat
  const4k : Nat
  variants : Nat
  resvCount : Nat
  shbufCount : Nat
  codeOff : Nat
  constOff : Nat
  tablesOff : Nat
  sigOff : Nat
  imageLen : Nat
deriving DecidableEq, Repr

/-- Reads the header. -/
def readHdr (b : Bytes) : ScoreHdr where
  flags := leAt b 7 1
  codeWords := leAt b 16 2
  const4k := leAt b 18 1
  variants := leAt b 19 1
  resvCount := leAt b 20 1
  shbufCount := leAt b 21 1
  codeOff := leAt b 28 4
  constOff := leAt b 32 4
  tablesOff := leAt b 36 4
  sigOff := leAt b 40 4
  imageLen := leAt b 24 4

/-- Every byte of a string is 0. -/
def allZero (b : Bytes) : Bool := b.all fun x => x == 0#8

/-- Reservation entry `k` of a table (R196). -/
def readResv (t : Bytes) (k : Nat) : Resv where
  kind := leAt t (16 * k) 1
  place := leAt t (16 * k + 1) 1
  offset := leAt t (16 * k + 4) 4
  length := leAt t (16 * k + 8) 4
  winStart := leAt t (16 * k + 12) 2
  winEnd := leAt t (16 * k + 14) 2

/-- Share-buffer entry `k` of a table (R198). -/
def readShBuf (t : Bytes) (k : Nat) : ShBuf where
  base := leAt t (16 * k) 4
  planeLen := leAt t (16 * k + 4) 4
  stride := leAt t (16 * k + 8) 4
  layout := leAt t (16 * k + 12) 1

/-- The reservation table of an image. -/
def resvTable (b : Bytes) (h : ScoreHdr) : Bytes := b.drop (h.tablesOff + 32 * h.variants)

/-- The share-buffer table of an image. -/
def shbufTable (b : Bytes) (h : ScoreHdr) : Bytes := b.drop (h.tablesOff + 32 * h.variants + 16 * h.resvCount)

/-- Variant entry `k` with its reservation entries (R195). -/
def readVariant (b : Bytes) (h : ScoreHdr) (k : Nat) : Variant :=
  let t := b.drop (h.tablesOff + 32 * k)
  { opcode := leAt t 0 1, vflags := leAt t 1 1, entry := leAt t 2 2, pealLen := leAt t 4 4, attEntry := leAt t 8 2
    maxAttempts := leAt t 10 2, attLen := leAt t 12 4, resOff := leAt t 16 2, inMax := leAt t 20 4
    outMax := leAt t 24 4
    resvs := (List.range (leAt t 19 1)).map fun j => readResv (resvTable b h) (leAt t 18 1 + j) }

/-- Check 0x02 fails (R201). -/
def badHeader (b : Bytes) (len : Nat) : Bool :=
  leAt b 0 4 != 0x4B575331 || leAt b 4 2 != 1 || !(leAt b 6 1 == 1 || leAt b 6 1 == 2) || decide (4 ≤ leAt b 7 1)
    || leAt b 23 1 != 0 || !allZero ((b.drop 44).take 20) || leAt b 7 1 == 2 || leAt b 24 4 != len
    || decide (262144 < leAt b 24 4) || decide (31 < leAt b 22 1)

/-- Check 0x03 fails (R193, R201). -/
def badLayout (b : Bytes) (h : ScoreHdr) : Bool :=
  let tEnd := h.tablesOff + 32 * h.variants + 16 * h.resvCount + 16 * h.shbufCount
  let cEnd := h.codeOff + 8 * h.codeWords
  let kEnd := if h.const4k = 0 then cEnd else h.constOff + 4096 * h.const4k
  h.codeWords == 0 || decide (4096 < h.codeWords) || decide (16 < h.const4k) || h.variants == 0
    || decide (16 < h.variants) || decide (96 < h.resvCount) || decide (32 < h.shbufCount) || decide (h.tablesOff < 64)
    || decide (h.codeOff < tEnd) || h.codeOff % 8 != 0
    || (if h.const4k = 0 then h.constOff != 0 else decide (h.constOff < cEnd) || h.constOff % 4096 != 0)
    || decide (h.sigOff < kEnd) || decide (h.imageLen < h.sigOff) || decide (b.length < h.imageLen)

/-- The one CSM_WORK extent of a variant, if it has exactly one. -/
def Variant.work (v : Variant) : Option Resv :=
  match v.resvs.filter fun r => r.kind == 3 with
  | [r] => some r
  | _ => none

/-- CHAIN, PAIRABLE, OPENKEY and MASK (R195). -/
def Variant.chain (v : Variant) : Bool := v.vflags.testBit 0
def Variant.pairable (v : Variant) : Bool := v.vflags.testBit 1
def Variant.openkey (v : Variant) : Bool := v.vflags.testBit 2
def Variant.mask (v : Variant) : Bool := v.vflags.testBit 3

/-- A peal length outside R186. -/
def badLen (n : Nat) : Bool := decide (n < 2) || decide (65536 < n)

/-- Check 0x04 fails for one variant (R201). -/
def badVariant (h : ScoreHdr) (cls : Nat) (v : Variant) : Bool :=
  decide (h.codeWords ≤ v.entry) || badLen v.pealLen || decide (16 ≤ v.vflags)
    || (if v.chain then decide (h.codeWords ≤ v.attEntry) || badLen v.attLen || v.maxAttempts == 0
        else v.attEntry != 0 || v.attLen != 0 || v.maxAttempts != 0)
    || (match v.resvs.filter (fun r => r.kind == 3) with
        | [] => true
        | [r] => decide (r.length < v.resOff + 8) || v.resOff % 8 != 0
        | _ => v.resOff % 8 != 0)
    || (v.openkey && cls == 2)

/-- An extent lies outside its frame (R188, R197). -/
def extOutside (r : Resv) : Bool :=
  if r.length = 0 then true
  else if r.place.testBit 7 then
    decide (4096 ≤ r.offset + 512 * ((r.length - 1) / 4096) + min 511 ((r.length - 1) % 4096))
  else decide (4096 < r.offset + r.length)

/-- A 64-byte granule of `a` starts inside `b`. -/
def extHits (a b : Resv) : Bool :=
  (List.range ((a.length + 63) / 64)).any fun k => let p := extPos a (64 * k); (extIndex b p.1 p.2).isSome

/-- Two of the entries of a list relate. -/
def anyPair {α : Type} (f : α → α → Bool) : List α → Bool
  | [] => false
  | x :: t => t.any (f x) || anyPair f t

/-- One reservation entry breaks R196 or the bounds of check 0x05. -/
def badResv (v : Variant) (r : Resv) : Bool :=
  if r.isExtent then
    r.offset % 64 != 0 || extOutside r ||
      (if r.kind = 4 then decide (r.winEnd ≤ r.winStart) || decide (v.pealLen ≤ r.winEnd + 1)
       else r.winStart != 0 || r.winEnd != 0)
  else
    let top := if r.kind = 6 then 1 else 3
    decide (r.kind < 5) || decide (7 < r.kind) || decide (top < r.place) || r.offset != 0 || r.winStart != 0
      || r.winEnd != 0 || (r.kind == 7 && r.length != 1)

/-- Key-port blocks of a call of the variant (R192). -/
def Variant.keyBlocks (v : Variant) : Nat :=
  (v.resvs.filter fun r => decide (5 ≤ r.kind)).foldl (fun n r => n + r.length) 0

/-- Total length of a variant's extents of a kind. -/
def Variant.extLen (v : Variant) (kind : Nat) : Nat :=
  (v.resvs.filter fun r => r.kind == kind).foldl (fun n r => n + r.length) 0

/-- Check 0x05 fails for one variant (R201). -/
def badReservations (v : Variant) : Bool :=
  v.resvs.any (badResv v)
    || [1, 2, 3].any (fun k => decide (1 < (v.resvs.filter fun r => r.kind == k).length))
    || anyPair (fun a b => a.isExtent && b.isExtent && (extHits a b || extHits b a)) v.resvs
    || anyPair (fun a b => decide (5 ≤ a.kind) && decide (5 ≤ b.kind) && (a.kind == 6) == (b.kind == 6)
        && a.place == b.place) v.resvs
    || decide (64 < v.keyBlocks) || decide (v.extLen 1 + v.extLen 4 < v.inMax) || decide (v.extLen 2 < v.outMax)

/-- Check 0x06 fails for one variant (R201). -/
def badRate (v : Variant) : Bool :=
  v.resvs.any fun r => r.kind == 4 && decide (1024 * (r.winEnd - r.winStart) < r.length)

/-- The planes of a share buffer: first byte of each. -/
def ShBuf.planes (b : ShBuf) : List Nat := (List.range (b.layout / 64 + 1)).map fun j => b.base + j * b.stride

/-- A layout code is reserved (R155). -/
def badLayoutCode (l : Nat) : Bool :=
  l / 64 == 3 || (match l / 16 % 4 with | 1 => decide (7 < l % 16) || l % 16 == 3 | 2 => decide (3 < l % 16) | _ => l % 16 != 0)

/-- Check 0x07 fails (R155, R198, R201). -/
def badShares (h : ScoreHdr) (bufs : List ShBuf) : Bool :=
  bufs.any (fun b => b.base % 64 != 0 || badLayoutCode b.layout ||
      b.planes.any fun p => decide (p < 4096 * h.const4k) || decide (0x20000 < p + b.planeLen))
    || anyPair (fun a b => a.planes.any fun p => b.planes.any fun q =>
        decide (p < q + b.planeLen) && decide (q < p + a.planeLen)) bufs

/-- Every stored score with its index. -/
def State.scores (s : State) : List (Nat × Score) := s.sch.store.filterMap fun e => e.2.map fun x => (e.1, x)

/-- Check 0x08 fails (R201, R252). -/
def badOpcode (s : State) (cls : Nat) (vs : List Variant) : Bool :=
  vs.any (fun v => if cls = 1 then v.opcode == 0 || decide (0xA8 ≤ v.opcode) else decide (v.opcode < 0xC0))
    || anyPair (fun a b => a.opcode == b.opcode) vs
    || vs.any fun v => s.scores.any fun e => e.2.variants.any fun w => w.opcode == v.opcode

/-- LCC_STAT.STATE of a life-cycle state (R529). -/
def LcState.code : LcState → Nat
  | .raw => 0 | .test => 1 | .mfg => 2 | .owned => 3 | .rma => 4 | .scrap => 5

/-- The ASCII bytes of a context or customisation string. -/
def ascii (s : String) : Bytes := s.toList.map fun c => BitVec.ofNat 8 c.toNat

/-- Entry `k` of a signature block has the layout of R509, names the signer, and its signature verifies. -/
def State.sigEntryOk (s : State) (msg blk : Bytes) (k signer : Nat) : Bool :=
  let e := (blk.drop (8 + 4640 * k)).take 4640
  leAt e 0 1 == signer && allZero ((e.drop 1).take 7) && allZero (e.drop 4635)
    && Config.scoreVerify signer s.otp.ownerDigest (ascii "AK-SCORE" ++ msg) ((e.drop 8).take 4627)

/-- The signature block holds just these signers, in this order (R509). -/
def State.sigBlockOk (s : State) (b : Bytes) (signers : List Nat) : Bool :=
  let h := readHdr b
  let msg := b.take h.sigOff
  let blk := (b.take h.imageLen).drop h.sigOff
  leAt blk 0 4 == 0x31534B41 && leAt blk 4 1 == signers.length && allZero ((blk.drop 5).take 3)
    && blk.length == 8 + 4640 * signers.length
    && (signers.zip (List.range signers.length)).all fun p => s.sigEntryOk msg blk p.2 p.1

/-- A score image of a class is permitted by the signature rules of the state in force (R508, R509). -/
def State.scoreSigOk (s : State) (cls : Nat) (b : Bytes) : Bool :=
  match s.lc with
  | .raw => true
  | .test => true
  | .rma => true
  | .mfg => s.sigBlockOk b [1]
  | .owned => if cls = 2 then s.sigBlockOk b [2] else s.sigBlockOk b [1, 2]
  | .scrap => false

/-- The first free store entry, looking at `n` entries. -/
def State.freeEntryIdx (s : State) : Nat → Nat → Option Nat
  | 0, _ => none
  | n + 1, i => if (mget (fun _ => none) s.sch.store i).isNone then some i else s.freeEntryIdx n (i + 1)

/-- The result code of an image and, at OK, its score and store entry (R201). -/
def State.verifyScore (s : State) (b : Bytes) (len : Nat) (any : Bool) (owner : Nat) : Nat × Option (Nat × Score) :=
  let h := readHdr b
  let cls := leAt b 6 1
  let vs := (List.range h.variants).map (readVariant b h)
  let bufs := (List.range h.shbufCount).map (readShBuf (shbufTable b h))
  let sc : Score :=
    { cls := cls, flags := h.flags, scoreId := leAt b 8 4, version := leAt b 12 4, codeWords := h.codeWords
      const4k := h.const4k, stagger := leAt b 22 1, variants := vs, shbufs := bufs
      code := (b.drop h.codeOff).take (8 * h.codeWords)
      consts := (b.drop h.constOff).take (4096 * h.const4k), any := any, owner := owner
      resvs := (List.range h.resvCount).map (readResv (resvTable b h)) }
  if !s.scoreSigOk cls b then (0x01, none)
  else if badHeader b len then (0x02, none)
  else if badLayout b h then (0x03, none)
  else if vs.any (badVariant h cls) || vs.any (·.mask) != h.flags.testBit 1 then (0x04, none)
  else if vs.any badReservations then (0x05, none)
  else if vs.any badRate then (0x06, none)
  else if badShares h bufs then (0x07, none)
  else if badOpcode s cls vs then (0x08, none)
  else if s.scores.any (fun e => e.2.scoreId == sc.scoreId && decide (sc.version < e.2.version)) then (0x09, none)
  else match s.freeEntryIdx 64 0 with
    | none => (0x0A, none)
    | some i => (0x00, some (i, sc))

/-- The score that serves an opcode to an instance, with its store index and variant (R202). -/
def State.scoreFor (s : State) (op inst : Nat) : Option (Nat × Score × Variant) :=
  s.scores.findSome? fun e =>
    if e.2.any || e.2.owner == inst then (e.2.variants.find? fun v => v.opcode == op).map fun v => (e.1, e.2, v)
    else none

end Sys2Proof.Machine
end

