-- ==== Sys2Proof/Machine/Store.lean ====
section
/-!
DEFINITION. The score store and the engines' loads (R200 to R205, R234, R242).
-/
namespace Sys2Proof.Machine

/-- A stored score. -/
def State.score (s : State) (i : Nat) : Option Score := mget (fun _ => none) s.sch.store i

/-- Any engine holds or is being given store entry `i` (R205). -/
def State.holdsScore (s : State) (i : Nat) : Bool :=
  s.engines.any fun e => (match e.2.resident with | some r => r.index == i | none => false)
    || (match e.2.loading with | some l => l.index == some i | none => false)

/-- The fields of SCH_LOAD_CMD that hold what was written: ANY, OWNER, INDEX (R241). -/
def State.storeLoadCmd (s : State) (cmd : W32) : State := s.setReg 0x10002C (cmd &&& 0x1FF7F#32)

/-- A write of a command register while its BUSY bit is set has no effect, and raises the region's access event where it asks
for a change (R242, R663; log entry 53). -/
def State.lockedSch (s : State) (asks : Bool) : State := if asks then s.raiseHiu 11 0 0 0 else s

/-- GO: the image is fetched through instance 0's windows (R200, R31); while BUSY the write has no effect (R242). -/
def execSchLoadGo (cmd : BitVec 32) (image : HostRead) (s : State) : Host.Outcome State Fault Refusal :=
  .next (s.pfWrite fun s => if s.sch.fetched.isSome then s.lockedSch true
  else
    let s := s.storeLoadCmd cmd
    let a := (s.reg 0x100020).toNat + (s.reg 0x100024).toNat * 2 ^ 32
    let put (s : State) (x : Option Bytes) : State := { s with sch := { s.sch with fetched := some x } }
    if !s.windowOk 0 a (s.reg 0x100028).toNat false then put (s.windowMiss 0 0) none
    else match image with
      | .ok b => put s (some b)
      | r => put (s.raiseRead 0 0 r) none)

/-- The checks end: the score enters the store, or the store stays as it is (R200 to R202). -/
def execScoreVerifyDone (s : State) : Host.Outcome State Fault Refusal :=
  .next (match s.sch.fetched with
  | none => s
  | some none => { s with sch := { s.sch with fetched := none, loadResult := 0x0B } }
  | some (some b) =>
    let r := s.reg 0x10002C
    let v := s.verifyScore b (s.reg 0x100028).toNat (bit32 r 16) (fld r 8 8)
    match v.2 with
    | none => { s with sch := { s.sch with fetched := none, loadResult := v.1 } }
    | some x => { s with sch := { s.sch with
        fetched := none, loadResult := 0, loadIndex := x.1, store := mset (fun _ => none) s.sch.store x.1 (some x.2) } })

/-- DROP removes an entry that no engine holds, else reports IN_USE; an INDEX of 64 or more has no effect (R205,
R241). -/
def execSchLoadDrop (cmd : BitVec 32) (s : State) : Host.Outcome State Fault Refusal :=
  .next (s.pfWrite fun s => if s.sch.fetched.isSome then s.lockedSch true
  else
    let s := s.storeLoadCmd cmd
    let i := fld cmd 0 7
    if 64 ≤ i then s
    else if s.holdsScore i then { s with sch := { s.sch with loadResult := 0x0C } }
    else { s with sch := { s.sch with store := mset (fun _ => none) s.sch.store i none, loadResult := 0 } })

/-- Marks the selected engines of a cluster as waiting for a load, `n` engines looked at. -/
def State.markLoading (s : State) (c : Nat) (mask : W32) (l : EngLoad) : Nat → State
  | 0 => s
  | n + 1 =>
    let s := s.markLoading c mask l n
    if bit32 mask n then s.setEng (32 * c + n) { s.eng (32 * c + n) with loading := some l } else s

/-- GO: the placement starts, or its result says why it does not (R203, R242). -/
def execSchPlaceGo (cmd : BitVec 32) (s : State) : Host.Outcome State Fault Refusal :=
  .next (s.pfWrite fun s => if s.sch.placing.isSome then s.lockedSch true
  else
    let s := s.setReg 0x100040 (cmd &&& 0xF007F#32)
    let i := fld cmd 0 7
    let c := fld cmd 16 4
    let mask := s.reg 0x100044
    let index := if i = 0x7F then none else some i
    if i != 0x7F && (s.score i).isNone then { s with sch := { s.sch with placeResult := 1 } }
    else if !(s.cl c).inService then { s with sch := { s.sch with placeResult := 2 } }
    else { (s.markLoading c mask { index := index } 32) with
      sch := { s.sch with placing := some { cluster := c, mask := mask, index := index }, placeResult := 0 } })

/-- A call is planned on, or runs on, engine `i`. -/
def State.engBusy (s : State) (i : Nat) : Bool :=
  (s.eng i).peal.isSome || s.allCalls.any fun e =>
    isEngineOp e.2.opcode && e.2.place.any fun h => h.unit == i && h.res.isNone

/-- A load of engine `i` has to wait: for the calls planned on it (R203), or, for a reload, for its peal (R234). -/
def State.loadBlocked (s : State) (i : Nat) : Bool :=
  if (s.eng i).loading.isSome then s.engBusy i else (s.eng i).peal.isSome

/-- The 64-bit words of a code image as IMEM entries. -/
def imemOf (code : Bytes) (n : Nat) : Map W64 :=
  (List.range n).filterMap fun i => let w := BitVec.ofNat 64 (leAt code (8 * i) 8); if w = 0#64 then none else some (i, w)

/-- A byte string as a memory from address 0 on. -/
def memOf (b : Bytes) : Map Byte :=
  (b.zip (List.range b.length)).filterMap fun p => if p.1 = 0#8 then none else some (p.2, p.1)

/-- An engine after a load: IMEM and the constant region written, the rest of DMEM zero (R60, R203); or emptied. -/
def Engine.load (e : Engine) (index : Nat) (sc : Option Score) : Engine :=
  match sc with
  | some x =>
    { e with imem := imemOf x.code x.codeWords, dmem := memOf x.consts, loading := none, needReload := false
             resident := some { index := index, codeWords := x.codeWords, constLen := 4096 * x.const4k
                                vec := x.flags.testBit 0, cls := x.cls, shbufs := x.shbufs
                                resvs := x.resvs }
             badParity := e.badParity.filter fun p => match p with | .imem _ => false | .dmem _ => false | _ => true }
  | none =>
    { e with imem := [], dmem := [], loading := none, needReload := false, resident := none
             badParity := e.badParity.filter fun p => match p with | .imem _ => false | .dmem _ => false | _ => true }

/-- What engine `i` is to be loaded with now: a placement (R203), or its own score again (R234). -/
def Engine.wants (e : Engine) : Option (Option Nat) :=
  match e.loading with
  | some l => some l.index
  | none => if e.needReload then some (e.resident.map (·.index)) else none

/-- Loads every engine of the cluster that waits for it, `n` engines looked at. -/
def State.loadEngines (s : State) (c : Nat) : Nat → State
  | 0 => s
  | n + 1 =>
    let s := s.loadEngines c n
    let e := s.eng (32 * c + n)
    match e.wants with
    | none => s
    | some none => s.setEng (32 * c + n) (e.load 0 none)
    | some (some i) => s.setEng (32 * c + n) (e.load i (s.score i))

/-- Local beats of a load (R203). -/
def loadBeats (sc : Option Score) : Nat :=
  match sc with
  | some x => 4 + (8 * x.codeWords + 4096 * x.const4k + 2047) / 2048
  | none => 4

/-- The load of a cluster's engines ends, once the calls planned on them have finished (R203, R234); a placement that selects
no engine ends too. -/
def execEngineLoadDone (cluster : BitVec 4) (s : State) : Host.Outcome State Fault Refusal :=
  let c := cluster.toNat
  let want := (List.range 32).filter fun n => (s.eng (32 * c + n)).wants.isSome
  .next (if (want.isEmpty && s.sch.placing.map (·.cluster) != some c) || want.any (fun n => s.loadBlocked (32 * c + n)) then s
  else
    let k := s.cl c
    let beats := want.foldl (fun m n => max m (loadBeats (((s.eng (32 * c + n)).wants.getD none).bind s.score))) 0
    let s := (s.goTo (k.globalOf (k.localOf s.g + beats))).loadEngines c 32
    match s.sch.placing with
    | some p => if p.cluster = c then { s with sch := { s.sch with placing := none, placeResult := 0 } } else s
    | none => s)

end Sys2Proof.Machine
end

