-- ==== Sys2Proof/Machine/Admit.lean ====
section
/-!
DEFINITION. Admission: classes, floors and virtual time, the choice of engine and start beat, and stateful indices
(R206 to R214, R235, R284, R295).
-/
namespace Sys2Proof.Machine

/-! ## Start beats -/

/-- The first local beat of a cluster that falls at or after global beat `x` (R185). -/
def Cluster.firstAt (k : Cluster) (x : Nat) : Nat :=
  let r := capRatio k.capStep
  if x ≤ k.gRef then k.bRef else k.bRef + ((x - k.gRef - 1) * r.2) / r.1 + 1

/-- The first beat at or after `b` that satisfies R66 for engine `en`. -/
def alignTo (b en : Nat) : Nat := b + (en + 32 - b % 32) % 32

/-- The length of the peal a call runs now or next (R227). -/
def Call.curLen (c : Call) : Nat :=
  match c.var with
  | some v => if c.attempt = 0 then v.pealLen else v.attLen
  | none => 0

/-- The local beat from which engine `i` is free of the peals planned on it (R187). -/
def State.busyUntil (s : State) (i : Nat) : Nat :=
  s.allCalls.foldl (fun m e => if isEngineOp e.2.opcode then
    e.2.place.foldl (fun m h => if h.unit = i && h.res.isNone then max m (h.start + e.2.curLen) else m) m else m) 0

/-- STAGE_LEAD (R214, R241). -/
def State.stageLead (s : State) : Nat := fld (s.reg 0x100004) 8 8

/-- The global beat at which the vector domain of a cluster is ON for a start planned now; none when it can neither be
ON nor wake (R85, R211). -/
def State.vecReady (s : State) (c : Nat) : Option Nat :=
  let k := s.cl c
  match k.vpwr with
  | .on => some 0
  | .waking => some k.vpwrDue
  | .off => if s.wakeGrantable then some (s.g + k.wakeBeats) else none
  | .gating => none

/-- The start beat of a peal on engine `i` that may not fall before global beat `gMin` (R214). -/
def State.startOn (s : State) (i gMin : Nat) (vec : Bool) : Nat :=
  let k := s.cl (i / 32)
  let g := if vec then max gMin ((s.vecReady (i / 32)).getD 0) else gMin
  alignTo (max (k.firstAt g) (s.busyUntil i)) (i % 32)

/-! ## Eligible engines -/

/-- The blocks a call keeps past the scrub beat of its main peal: those of its output keys, which an attempt chain carries on
(R192, R228). -/
def Variant.keptBlocks (v : Variant) : Nat := (v.resvs.filter fun r => r.kind == 6).foldl (fun n r => n + r.length) 0

/-- Key-port blocks in use on a cluster (R192). -/
def State.kpbUsed (s : State) (c : Nat) : Nat :=
  s.allCalls.foldl (fun m e => match e.2.var with
    | none => m
    | some v => e.2.place.foldl (fun m h =>
        if isEngineOp e.2.opcode && h.unit / 32 == c && h.res.isNone then
          m + (if decide (0 < e.2.attempt) then v.keptBlocks else match (s.eng h.unit).peal with
            | some p => if p.call = e.1 && p.scrubbed then v.keptBlocks else v.keyBlocks
            | none => v.keyBlocks)
        else m) m) 0

/-- Engine `i` could take calls of store entry `idx` (R79, R81, R104, R107, R203). -/
def State.holds (s : State) (i idx : Nat) : Bool :=
  let e := s.eng i
  (match e.resident with | some r => r.index == idx | none => false) && e.loading.isNone && !e.needReload
    && (s.cl (i / 32)).inService

/-- Engine `i` meets the conditions of R211 for a call; one whose peal an alarm ended takes none before it is cleared (R25). -/
def State.eligible (s : State) (c : Call) (idx : Nat) (v : Variant) (vec : Bool) (i : Nat) : Bool :=
  let e := s.eng i
  s.holds i idx && (e.mode == .idle || e.mode == .run || e.mode == .ended || e.mode == .left) && e.leave != some .alarm
    && e.frames != 3#2 && (!v.mask || !e.mrgExh)
    && (!e.dbgOn || c.inst == 0)
    && decide (s.kpbUsed (i / 32) + v.keyBlocks ≤ 512)
    && (!vec || (s.vecReady (i / 32)).isSome)

/-- Engines that hold a score, in rising order. -/
def State.loaded (s : State) : List Nat := (s.engines.filter fun e => e.2.resident.isSome).map (·.1)

/-- Engines of a cluster in a peal. -/
def State.running (s : State) (c : Nat) : Nat :=
  ((List.range 32).filter fun n => (s.eng (32 * c + n)).peal.isSome).length

/-- The order of R212 between two candidate engines: start, calls in peal, cluster, engine. -/
def lexLt : List Nat → List Nat → Bool
  | a :: t, b :: u => decide (a < b) || (a == b && lexLt t u)
  | _, _ => false

/-- The rank of engine `i` for a start planned now (R212). -/
def State.rank (s : State) (i gMin : Nat) (vec : Bool) : List Nat :=
  [(s.cl (i / 32)).globalOf (s.startOn i gMin vec), s.running (i / 32), i]

/-- The best of a list of engines (R212). -/
def State.best (s : State) (gMin : Nat) (vec : Bool) (l : List Nat) : Option Nat :=
  l.foldl (fun b i => match b with
    | none => some i
    | some j => if lexLt (s.rank i gMin vec) (s.rank j gMin vec) then some i else some j) none

/-- A call takes a frame and a start beat on engine `i`; a cluster whose domain is OFF starts to wake (R83, R189). -/
def State.takeEngine (s : State) (i gMin : Nat) (vec : Bool) : Half × State :=
  let e := s.eng i
  let f := if e.frames.getLsbD (e.nextFrame % 2) then 1 - e.nextFrame % 2 else e.nextFrame % 2
  let h : Half := { unit := i, frame := f, start := s.startOn i gMin vec, res := none }
  let s := if vec && (s.cl (i / 32)).vpwr == .off then s.startWake (i / 32) else s
  (h, s.setEng i { s.eng i with frames := e.frames ||| (1#2 <<< f), nextFrame := 1 - f })

/-- The places of a call whose variant and score are given, and the state that holds them; none when no engine is
eligible (R211, R212, R236). Only engines that `allow` admits are looked at (R233). -/
def State.findPlaces (s : State) (c : Call) (idx : Nat) (v : Variant) (gMin : Nat) (allow : Nat → Bool) :
    Option (List Half × State) :=
  let vec := match s.score idx with | some x => x.flags.testBit 0 | none => false
  let cand (s : State) (l : List Nat) : List Nat := l.filter fun i => allow i && s.eligible c idx v vec i
  match s.best gMin vec (cand s s.loaded) with
  | none => none
  | some i =>
    if !c.paired then let r := s.takeEngine i gMin vec; some ([r.1], r.2)
    else
      let firsts := (cand s s.loaded).filter fun j =>
        let t := (s.takeEngine j gMin vec).2
        !(cand t (t.loaded.filter fun k => k / 32 != j / 32)).isEmpty
      match s.best gMin vec firsts with
      | none => none
      | some i =>
        let r := s.takeEngine i gMin vec
        match r.2.best gMin vec (cand r.2 (r.2.loaded.filter fun k => k / 32 != i / 32)) with
        | none => none
        | some j => let t := r.2.takeEngine j gMin vec
                    some ([r.1, t.1], t.2)

/-! ## Classes, floors and virtual time -/

/-- The class of a call, lowered to MAXCLASS of its instance (R206). -/
def State.classOf (s : State) (c : Call) : Nat := min c.cls (fld (s.reg (0x100100 + 4 * c.inst)) 8 2)

/-- WEIGHT of an instance (R209). -/
def State.weight (s : State) (i : Nat) : Nat := fld (s.reg (0x100100 + 4 * i)) 0 8

/-- The virtual time of an instance (R208). -/
def State.virt (s : State) (i : Nat) : Nat := mget (fun _ => 0) s.sch.virt i

/-- A peal of `len` beats is issued for a call: virtual time and class sums (R207, R208). -/
def State.charge (s : State) (c : Call) (len times : Nat) : State :=
  let k := s.classOf c
  let v := s.virt c.inst + times * (len * 4096 / s.weight c.inst)
  { s with sch := { s.sch with
      virt := mset (fun _ => 0) s.sch.virt c.inst v
      sumBulk := s.sch.sumBulk + (if k = 0 then times * len else 0)
      sumNormal := s.sch.sumNormal + (if k = 1 then times * len else 0)
      sumUrgent := s.sch.sumUrgent + (if 2 ≤ k then times * len else 0) } }

/-- A call of instance `i` becomes pending: its virtual time does not lag behind the pending instances (R208). -/
def State.nowPending (s : State) (i : Nat) : State :=
  let pend := (s.allCalls.filter fun e => e.2.st == .pool).map fun e => e.2.inst
  if pend.contains i then s
  else match pend with
    | [] => s
    | j :: t =>
      let m := t.foldl (fun m x => min m (s.virt x)) (s.virt j)
      { s with sch := { s.sch with virt := mset (fun _ => 0) s.sch.virt i (max (s.virt i) m) } }

/-- The governor holds the class of a call (R213). -/
def State.governed (s : State) (k : Nat) : Bool := (k == 0 && s.sch.holdBulk) || (k == 1 && s.sch.holdNormal)

/-- The head of its queue among the pooled calls: no earlier call of the queue is pending (R208). -/
def State.isHead (s : State) (c : Call) : Bool :=
  !(s.allCalls.any fun e => e.2.st == .pool && e.2.inst == c.inst && e.2.queue == c.queue && decide (e.2.seq < c.seq))

/-- Admits a call: places, class sums and virtual time; none when no engine is eligible (R211, R295). -/
def State.tryAdmit (s : State) (k : Nat) (c : Call) : Option State :=
  let times := if c.paired then 2 else 1
  if isMauOp c.opcode then
    let s := s.charge c (mauBeats (c.mauTime c.size.e)) times
    some (s.setCall k (some { c with st := .unplaced, admitG := s.g }))
  else match s.scoreFor c.opcode c.inst with
    | none => none
    | some (idx, sc, v) =>
      match s.findPlaces c idx v (s.g + s.stageLead) (fun i => !c.avoidEng.contains i) with
      | none => none
      | some (hs, s') =>
        let s' := s'.charge c v.pealLen times
        some (s'.setCall k (some { c with st := .staging, place := hs, admitG := s.g, var := some v, stagger := sc.stagger }))

/-- The class served next, of the classes that have candidates (R207). -/
def State.pickClass (s : State) (has : Nat → Bool) : Option Nat :=
  let total := s.sch.sumBulk + s.sch.sumNormal + s.sch.sumUrgent
  let fl := s.reg 0x100010
  let low (sum floor : Nat) : Bool := decide (64 * sum < floor * total)
  let hi := if has 2 then some 2 else if has 1 then some 1 else if has 0 then some 0 else none
  match hi with
  | none => none
  | some h =>
    if decide (1 < h) && has 1 && low s.sch.sumNormal (fld fl 8 6) then some 1
    else if decide (0 < h) && has 0 && low s.sch.sumBulk (fld fl 0 6) then some 0
    else some h

/-- Among queues, the first after the one served last, in ascending order and wrapping (R208). -/
def turn (last : Nat) (qs : List Nat) : Option Nat :=
  let m (l : List Nat) : Option Nat := l.foldl (fun b q => match b with | none => some q | some x => some (min x q)) none
  match m (qs.filter fun q => decide (last < q)) with
  | some q => some q
  | none => m qs

/-- The call that is admitted next, with the state after its admission (R206 to R213). -/
def State.pickCall (s : State) : Option (Nat × Call × State) :=
  let cand := s.allCalls.filterMap fun e =>
    if e.2.st == .pool && s.isHead e.2 && s.weight e.2.inst != 0 && !s.governed (s.classOf e.2) then
      (s.tryAdmit e.1 e.2).map fun t => (e.1, e.2, t)
    else none
  match s.pickClass fun k => cand.any fun e => min 2 (s.classOf e.2.1) == k with
  | none => none
  | some k =>
    let cand := cand.filter fun e => min 2 (s.classOf e.2.1) == k
    let inst := (cand.map fun e => e.2.1.inst).foldl (fun b i => match b with
      | none => some i
      | some j => if lexLt [s.virt i, i] [s.virt j, j] then some i else some j) none
    match inst with
    | none => none
    | some i =>
      let cand := cand.filter fun e => e.2.1.inst == i
      match turn (mget (fun _ => 15) s.sch.lastQueue i) (cand.map fun e => e.2.1.queue) with
      | none => none
      | some q => cand.find? fun e => e.2.1.queue == q

/-! ## Stateful indices (R284) -/

/-- The counter of an entry still holds the tag kept for it (R287, R445). -/
def State.ctrAlive (s : State) (i : Nat) : Bool :=
  let k := s.slot i
  let n := s.ctr k.rctr
  decide (k.rctr < 1024) && n.bound && n.tag == k.treeTag

/-- The key table assigns the next index of a tree entry, taking a fresh block of 1,024 first when its block is used
up; none when its counter is gone (R284, R287). -/
def State.assignIndex (s : State) (i : Nat) : Option Nat × State :=
  if !s.ctrAlive i then (none, s)
  else
    let k := s.slot i
    let n := s.ctr k.rctr
    if k.bleft = 0 then
      (some n.limit, (s.setCtr k.rctr { n with limit := n.limit + 1024 }).setSlot i { k with next := n.limit + 1, bleft := 1023 })
    else (some k.next, s.setSlot i { k with next := k.next + 1, bleft := k.bleft - 1 })

/-- A signing call, or a lower tree's TREE_END, draws an index of its KEY0 (R284). -/
def Call.needsIndex (c : Call) : Bool :=
  [0x6B, 0x6C, 0x6D, 0x6E, 0x73].contains c.opcode || ([0x6A, 0x72].contains c.opcode && c.keyHandle 0 != 0)

/-- Assigns the index of an admitted call, from the entry its KEY0 names; none when that entry is gone. A call that runs again
from the pool keeps the index it has (R284, R285). -/
def State.indexFor (s : State) (k : Nat) : State :=
  match s.call k with
  | some c =>
    if c.needsIndex && c.qIndex.isNone && c.replays + c.lates == 0 && s.handleOk c.inst (c.keyHandle 0) then
      let r := s.assignIndex (hIndex (c.keyHandle 0))
      r.2.setCall k (some { c with qIndex := r.1 })
    else s
  | none => s

/-! ## The step -/

/-- R81: every engine that could take a mask-using call has MRG_EXH set, and there is one. An engine under debug readback
could take the calls of instance 0 alone (R95); engines without a free frame or key-port blocks count (log entry 104). -/
def State.exhausted (s : State) (c : Call) : Bool :=
  isEngineOp c.opcode && match s.scoreFor c.opcode c.inst with
  | none => false
  | some (idx, _, v) =>
    let l := s.loaded.filter fun i => s.holds i idx && (!(s.eng i).dbgOn || c.inst == 0)
    v.mask && !l.isEmpty && l.all fun i => (s.eng i).mrgExh

/-- Completes the calls of a list with one status, their places freed. -/
def State.endAll (s : State) (status : Nat) : List Nat → State
  | [] => s
  | k :: t => (s.endCall k status false).endAll status t

/-- The SCH admits one pending call: the one R207 and R208 choose, where the limit of R210 and ADMIT_EN leave room.
Calls that R81 holds of complete at once. -/
def execAdmitCall (s : State) : Host.Outcome State Fault Refusal :=
  .next (if !bit32 (s.reg 0x100004) 0 || s.alarm then s
  else
    let s := s.endAll 0x07 ((s.allCalls.filter fun e => e.2.st == .pool && s.exhausted e.2).map (·.1))
    if s.sch.admitBeat == s.g && decide (4 ≤ s.sch.admitCount) then s
    else match s.pickCall with
      | none => s
      | some (k, c, t) =>
        let t := t.indexFor k
        { t with sch := { t.sch with
            admitBeat := s.g
            admitCount := if s.sch.admitBeat = s.g then s.sch.admitCount + 1 else 1
            lastQueue := mset (fun _ => 15) t.sch.lastQueue c.inst c.queue } })

/-- A period of 4,096 global beats ends and the class sums restart (R207). -/
def execFloorPeriodEnd (s : State) : Host.Outcome State Fault Refusal :=
  let s := s.goTo (s.sch.periodStart + 4096)
  .next { s with sch := { s.sch with periodStart := s.sch.periodStart + 4096, sumBulk := 0, sumNormal := 0, sumUrgent := 0 } }

end Sys2Proof.Machine
end

