-- ==== Sys2Proof/Machine/Issue.lean ====
section
/-!
DEFINITION. Issuing one engine word: the checks at issue, the timing contract (R175, R176), exceptions (R88, R89, R96)
and the step to the next word (R123).
-/
namespace Sys2Proof.Machine

/-- The 4-bit code of a cause (R88). -/
def Cause.code : Cause → Nat
  | .illegalInstr => 1 | .imemRange => 2 | .addrRange => 3 | .addrAlign => 4 | .constWrite => 5 | .csmPhase => 6
  | .keyportSlot => 7 | .vgated => 8 | .timingHazard => 9 | .parity => 10 | .kcuCheck => 11 | .pealOverrun => 12
  | .breakpoint => 13 | .mrgHealth => 14

/-- The cluster source of a cause (R105); a parity error names its own source. -/
def Cause.source : Cause → Nat
  | .illegalInstr => 8 | .imemRange => 8 | .addrRange => 9 | .addrAlign => 9 | .constWrite => 9 | .csmPhase => 10
  | .keyportSlot => 11 | .vgated => 13 | .timingHazard => 14 | .parity => 0 | .kcuCheck => 6 | .pealOverrun => 15
  | .breakpoint => 8 | .mrgHealth => 7

/-- What a word did: it completed, or took an exception with the elements below `eri` done (R88). -/
inductive Eff
  | done (s : State)
  | exc (c : Cause) (src eri : Nat) (s : State)

/-- An exception with no effect. -/
def Eff.stop (c : Cause) (s : State) : Eff := .exc c c.source 0 s

/-- The row of an instruction in the timing table, and what the checks at issue need (R109, R175, R181). -/
structure Row where
  legal : Bool
  /-- A vector, KCU or MRG instruction (R86, R117). -/
  vec : Bool := false
  /-- Draws from the mask generator for this many ec (R174, R181). -/
  draw : Nat := 0
  reads : List Loc := []
  /-- Destinations with their latency. -/
  writes : List (Loc × Nat) := []
  /-- Resources with their occupancy, the scalar core excepted. -/
  holds : List (Res × Nat) := []
  interval : Nat := 1
  /-- The next word where it is not PC + 1. -/
  target : Option Nat := none
  push : Option LoopEntry := none
  /-- Every source is read at issue (R65). -/
  atIssue : Bool := false

/-- s0 and p0 are constants: they are never written and always ready (R49, R52). -/
def Loc.fixed : Loc → Bool
  | .s 0 => true
  | .p 0 => true
  | _ => false

/-- The longest occupancy of a row: sources are read up to its last ec (R175). -/
def Row.occupancy (r : Row) : Nat := r.holds.foldl (fun n h => max n h.2) 1

/-- A word issued at ec `t` would break the timing contract (R176, points 1 to 5). -/
def Row.hazard (r : Row) (t : Nat) (flight : List InFlight) : Bool :=
  flight.any fun f =>
    (f.writes.any fun w => decide (t < w.2) &&
      (r.reads.contains w.1 || r.writes.any fun x => x.1 == w.1 && decide (t + x.2 ≤ w.2)))
    || (f.holds.any fun h => decide (t < h.2) && r.holds.any fun x => x.1 == h.1)
    || (decide (t ≤ f.readEnd) &&
        f.reads.any fun l => r.writes.any fun x => x.1 == l && decide (t + x.2 ≤ f.readEnd))

/-- What the contract remembers of a word issued at ec `t`. -/
def Row.flight (r : Row) (t : Nat) : InFlight where
  writes := (r.writes.filter fun x => !x.1.fixed).map fun x => (x.1, t + x.2)
  reads := if r.atIssue then [] else r.reads.filter fun l => !l.fixed
  readEnd := t + r.occupancy - 1
  holds := r.holds.map fun x => (x.1, t + x.2)

/-- Something of the word still lies at or after ec `t`. -/
def InFlight.live (f : InFlight) (t : Nat) : Bool :=
  decide (t ≤ f.readEnd) || f.writes.any (fun w => decide (t < w.2)) || f.holds.any fun h => decide (t < h.2)

/-- Reaching the end word of loop entries: count down, branch back or pop (R123). -/
def loopEnd (pc : Nat) : List LoopEntry → List LoopEntry × Option Nat
  | [] => ([], none)
  | x :: t =>
    if x.last = pc then
      if x.count - 1 = 0 then loopEnd pc t else ({ x with count := x.count - 1 } :: t, some x.first)
    else (x :: t, none)

/-- The engine may issue a word now (R61, R89, R96, R126). -/
def Engine.issuing (e : Engine) : Bool :=
  !e.endSeen && match e.mode with
  | .run => match e.peal with | some p => decide (e.pealEc < 32 * (p.len - 1)) | none => false
  | .resumed => true
  | .stepping => true
  | _ => false

/-- The source bit of a parity failure among the registers a word reads (R105). -/
def Engine.badSource (e : Engine) (reads : List Loc) : Option Nat :=
  if reads.any fun l => match l with | .v n => e.badParity.contains (.vreg n) | _ => false then some 1
  else if reads.any fun l => match l with
      | .s n => e.badParity.contains (.sreg n) | .p n => e.badParity.contains (.preg n) | _ => false then some 2
  else none

/-- A mask-generator lane repeats its previous output in one of the `n` ec from `t` on (R82): the ec that pass until the
next word may issue, and those in which the word draws. -/
def Engine.mrgRepeats (e : Engine) (t n : Nat) : Bool :=
  (List.range n).any fun k => decide (0 < t + k) && (List.range 4).any fun l =>
    decide (Config.mrgLane e.seed l (t + k) = Config.mrgLane e.seed l (t + k - 1))

/-- Whether an exception halts the engine for the debugger (R96). -/
def State.haltsOnExc (s : State) (i : Nat) : Bool :=
  (s.eng i).dbgOn && (s.cl (i / 32)).dbgHaltExc && (s.cl (i / 32)).dbgSel == i % 32

/-- The syndrome words of an engine error (R102). -/
def Engine.syn0 (e : Engine) (en code : Nat) : W32 := at32 en 17 ||| at32 code 13 ||| at32 (e.pc % 4096) 0

/-- Peal beat and element index of an engine error (R102). -/
def Engine.syn1 (e : Engine) (eri : Nat) : W32 := at32 (e.pealBeat % 65536) 16 ||| at32 (eri % 1024) 0

/-- Engine `i` takes an exception: the first-error record, then leaving the peal or halting (R88, R89, R96). A stepped
instruction halts the engine again also where it takes an exception and HALTEXC is clear (R97; log entry 100). -/
def State.takeExc (s : State) (i : Nat) (c : Cause) (src eri : Nat) : State :=
  let e := s.eng i
  let h := s.haltsOnExc i
  let s := s.raise (i / 32) src (e.syn0 (i % 32) c.code) (e.syn1 eri)
  s.setEng i { e with
    cause := c.code
    eri := eri
    needReload := e.needReload || src == 3
    mode := if h || e.mode == .stepping then .halted else .left
    leave := match e.leave with | some l => some l | none => some (if h then .debugHalt else .exc c) }

/-- The engine goes on to the next word (R121, R175): at the end word of a loop whose count stays above 0 that is the
loop's first word, whatever the word's own target (R123). A LOOP word that is itself such an end word pushes its entry
above the outer one, which is counted first (log entry 101). -/
def Engine.retire (e : Engine) (r : Row) (old : Engine) : Engine :=
  let l := loopEnd old.pc old.loops
  let t := old.pealEc + r.interval
  { e with
    loops := match r.push with | some x => x :: l.1 | none => l.1
    pc := l.2.getD (r.target.getD (old.pc + 1))
    pealEc := t
    eri := 0
    mode := if old.mode == .stepping then .halted else e.mode
    flight := (old.flight ++ [r.flight old.pealEc]).filter fun f => f.live t }

/-- Why the word is refused at issue: the cause and its source (R56, R86, R109, R174, R176, R581, R82). -/
def Engine.refuses (e : Engine) (r : Row) : Option (Cause × Nat) :=
  if (e.resident.map (·.codeWords)).getD 0 ≤ e.pc then some (.imemRange, 8)
  else if e.badParity.contains (.imem e.pc) then some (.parity, 3)
  else if !r.legal then some (.illegalInstr, 8)
  else if r.vec && !((e.resident.map (·.vec)).getD false) then some (.vgated, 13)
  else if decide (0 < r.draw) && !e.maskUse then some (.illegalInstr, 8)
  else if r.hazard e.pealEc e.flight then some (.timingHazard, 14)
  else match e.badSource r.reads with
    | some b => some (.parity, b)
    | none => if ((e.resident.map (·.vec)).getD false) && e.mrgRepeats e.pealEc (max r.interval r.draw) then
        some (.mrgHealth, 7) else none

/-- Issues one word on engine `i`: the checks, then the effect, then the next word. A word sent to an engine that
issues nothing has no effect (log entry 12). -/
def State.issue (s : State) (i : Nat) (row : Engine → Row) (eff : State → Eff) : State :=
  let e := s.eng i
  if !e.issuing then s
  else
    let r := row e
    match e.refuses r with
    | some (c, src) => s.takeExc i c src 0
    | none => match eff s with
      | .exc c src eri s' => s'.takeExc i c src eri
      | .done s' => s'.setEng i ((s'.eng i).retire r e)

/-- The outcome of issuing a word. -/
def issueWord (id : EngId) (row : Engine → Row) (eff : State → Eff) (s : State) : Host.Outcome State Fault Refusal :=
  .next (s.issue id.idx row eff)

/-- An effect that only changes the engine. -/
def onEngine (id : EngId) (f : Engine → Engine) (s : State) : Eff := .done (s.setEng id.idx (f (s.eng id.idx)))

end Sys2Proof.Machine
end

