-- ==== Sys2Proof/Machine/Vector.lean ====
section
/-!
DEFINITION. Vector integer instructions (R129, R130) and the constant-time select (R162).
-/
namespace Sys2Proof.Machine

/-- The occupancy of a form (R180). -/
def formOcc (pr : Bool) (occ : Nat) : Nat := if pr then 2 * occ else occ

/-- The latency of a form (R180). -/
def formLat (pr : Bool) (occ lat : Nat) : Nat := formOcc pr occ + (lat - occ)

/-- The timing row of a VXU instruction: registers read and written by form, VL and the predicate read (R175, R181). -/
def vxuRow (f : VV) (legal : Bool) (srcs dsts : List (BitVec 5)) (occ lat : Nat) : Row :=
  { legal := legal && pairOk f.pr f.w (srcs ++ dsts)
    vec := true
    reads := [.vl, .p f.pm.toNat] ++ srcs.flatMap (fun r => formRegs f.pr r.toNat)
    writes := dsts.flatMap fun r => (formRegs f.pr r.toNat).map fun l => (l, formLat f.pr occ lat)
    holds := [(.vxu, formOcc f.pr occ)] }

/-- The active elements of vd take `g`, which reads the sources before anything is written (R112 to R114). -/
def laneWrite (f : VV) (g : Engine → Nat → Nat) (e : Engine) : Engine :=
  let w := widthOf f.w
  e.setWide f.pr f.vd.toNat
    (mapLanes w (e.active w f.pr f.pm) (g e) (e.wide f.pr f.vd.toNat) (countOf w f.pr))

/-- Element `i` of the register or pair a field names. -/
def elem (f : VV) (r : BitVec 5) (e : Engine) (i : Nat) : Nat := lane (widthOf f.w) (e.wide f.pr r.toNat) i

/-- An element-wise operation of va and vb. -/
def vecBin (id : EngId) (f : VV) (lat : Nat) (op : Nat → Nat → Nat → Nat) : State → Host.Outcome State Fault Refusal :=
  issueWord id (fun _ => vxuRow f (vvOnly f [.vd, .va, .vb, .pm]) [f.va, f.vb] [f.vd] 8 lat)
    (onEngine id (laneWrite f fun e i => op (widthOf f.w) (elem f f.va e i) (elem f f.vb e i)))

/-- An element-wise operation of va and imm16. -/
def vecImm (id : EngId) (f : VV) (op : Nat → Nat → Nat → Nat) : State → Host.Outcome State Fault Refusal :=
  issueWord id (fun _ => vxuRow f (vvOnly f [.vd, .va, .imm, .pm]) [f.va] [f.vd] 8 10)
    (onEngine id (laneWrite f fun e i => op (widthOf f.w) (elem f f.va e i) f.imm.toNat))

/-- A left shift of a lane; an amount of w or more gives 0 (R130). -/
def shlLane (w a n : Nat) : Nat := if w ≤ n then 0 else a * 2 ^ n % 2 ^ w

/-- A right shift with zero fill; an amount of w or more gives 0 (R130). -/
def shrLane (w a n : Nat) : Nat := if w ≤ n then 0 else a / 2 ^ n

/-- A right shift with sign fill; an amount of w or more gives w copies of the sign bit (R130). -/
def sarLane (w a n : Nat) : Nat := ofInt w (toSigned w a / ((2 ^ min n w : Nat) : Int))

/-- VADD. -/
def execVadd (id : EngId) (f : VV) (s : State) : Host.Outcome State Fault Refusal :=
  vecBin id f 10 (fun w a b => (a + b) % 2 ^ w) s
/-- VSUB. -/
def execVsub (id : EngId) (f : VV) (s : State) : Host.Outcome State Fault Refusal :=
  vecBin id f 10 (fun w a b => (a + 2 ^ w - b) % 2 ^ w) s
/-- VMULLO. -/
def execVmullo (id : EngId) (f : VV) (s : State) : Host.Outcome State Fault Refusal :=
  vecBin id f 12 (fun w a b => a * b % 2 ^ w) s
/-- VMULHU. -/
def execVmulhu (id : EngId) (f : VV) (s : State) : Host.Outcome State Fault Refusal :=
  vecBin id f 12 (fun w a b => a * b / 2 ^ w) s
/-- VMULHS. -/
def execVmulhs (id : EngId) (f : VV) (s : State) : Host.Outcome State Fault Refusal :=
  vecBin id f 12 (fun w a b => ofInt w (toSigned w a * toSigned w b / ((2 ^ w : Nat) : Int))) s
/-- VAND. -/
def execVand (id : EngId) (f : VV) (s : State) : Host.Outcome State Fault Refusal := vecBin id f 10 (fun _ a b => a &&& b) s
/-- VOR. -/
def execVor (id : EngId) (f : VV) (s : State) : Host.Outcome State Fault Refusal := vecBin id f 10 (fun _ a b => a ||| b) s
/-- VXOR. -/
def execVxor (id : EngId) (f : VV) (s : State) : Host.Outcome State Fault Refusal := vecBin id f 10 (fun _ a b => a ^^^ b) s
/-- VANDN. -/
def execVandn (id : EngId) (f : VV) (s : State) : Host.Outcome State Fault Refusal :=
  vecBin id f 10 (fun w a b => a &&& (2 ^ w - 1 - b)) s
/-- VSLLI. -/
def execVslli (id : EngId) (f : VV) (s : State) : Host.Outcome State Fault Refusal := vecImm id f shlLane s
/-- VSRLI. -/
def execVsrli (id : EngId) (f : VV) (s : State) : Host.Outcome State Fault Refusal := vecImm id f shrLane s
/-- VSRAI. -/
def execVsrai (id : EngId) (f : VV) (s : State) : Host.Outcome State Fault Refusal := vecImm id f sarLane s
/-- VSLLV. -/
def execVsllv (id : EngId) (f : VV) (s : State) : Host.Outcome State Fault Refusal := vecBin id f 10 shlLane s
/-- VSRLV. -/
def execVsrlv (id : EngId) (f : VV) (s : State) : Host.Outcome State Fault Refusal := vecBin id f 10 shrLane s

/-- VBCAST: the low w bits of s[ss]. -/
def execVbcast (id : EngId) (f : VV) (s : State) : Host.Outcome State Fault Refusal :=
  issueWord id
    (fun _ => let r := vxuRow f (vvOnly f [.vd, .ss, .pm]) [] [f.vd] 8 10
              { r with reads := .s f.ss.toNat :: r.reads })
    (onEngine id (laneWrite f fun e _ => (e.sreg f.ss.toNat).toNat % 2 ^ widthOf f.w)) s

/-- VMOV. -/
def execVmov (id : EngId) (f : VV) (s : State) : Host.Outcome State Fault Refusal :=
  issueWord id (fun _ => vxuRow f (vvOnly f [.vd, .va, .pm]) [f.va] [f.vd] 8 10)
    (onEngine id (laneWrite f fun e i => elem f f.va e i)) s

/-- VIOTA: each active element takes its index. -/
def execViota (id : EngId) (f : VV) (s : State) : Host.Outcome State Fault Refusal :=
  issueWord id (fun _ => vxuRow f (vvOnly f [.vd, .pm]) [] [f.vd] 8 10)
    (onEngine id (laneWrite f fun _ i => i % 2 ^ widthOf f.w)) s

/-- VEXT: s[ss] takes element imm16 mod cnt, whatever its predicate bit; no vector is written. A non-zero
pm is accepted and is a source in the timing check (R129; DESIGN CHOICE, log entry 121). -/
def execVext (id : EngId) (f : VV) (s : State) : Host.Outcome State Fault Refusal :=
  issueWord id
    (fun _ => let r := vxuRow f (vvOnly f [.va, .ss, .imm, .pm]) [f.va] [] 8 10
              { r with writes := [(.s f.ss.toNat, formLat f.pr 8 10)] })
    (onEngine id fun e => e.setSreg f.ss.toNat
      (BitVec.ofNat 64 (elem f f.va e (f.imm.toNat % countOf (widthOf f.w) f.pr)))) s

/-- VPERM: va[vb[i] mod cnt]. -/
def execVperm (id : EngId) (f : VV) (s : State) : Host.Outcome State Fault Refusal :=
  issueWord id (fun _ => vxuRow f (vvOnly f [.vd, .va, .vb, .pm]) [f.va, f.vb] [f.vd] 16 20)
    (onEngine id (laneWrite f fun e i => elem f f.va e (elem f f.vb e i % countOf (widthOf f.w) f.pr))) s

/-- VCSEL: va where vc is not 0, else vb (R162). -/
def execVcsel (id : EngId) (f : VV) (s : State) : Host.Outcome State Fault Refusal :=
  issueWord id (fun _ => vxuRow f (vvFree f) [f.va, f.vb, f.vc] [f.vd] 8 12)
    (onEngine id (laneWrite f fun e i => if elem f f.vc e i = 0 then elem f f.vb e i else elem f f.va e i)) s

end Sys2Proof.Machine
end

