-- ==== Sys2Proof/Machine/Binary.lean ====
section
/-!
DEFINITION. Binary-field arithmetic (R138, R139).
-/
namespace Sys2Proof.Machine

/-- The field slot a word names: its polynomial and degree, where the slot is valid and W is permitted (R133, R139). -/
def Engine.field (e : Engine) (f : VV) : Option (Nat × Nat) :=
  if f.ms.toNat < 4 then none
  else match e.gslot (f.ms.toNat - 4) with
    | none => none
    | some p =>
      let m := polyDeg p 32
      if f.w == 1#2 || (f.w == 0#2 && decide (m ≤ 8)) then some (p, m) else none

/-- The row of a field instruction (R139, R181). -/
def gfRow (f : VV) (e : Engine) (legal : Bool) (srcs : List (BitVec 5)) (occ lat : Nat) : Row :=
  let r := vxuRow f (legal && (e.field f).isSome) srcs [f.vd] occ lat
  { r with reads := .g (f.ms.toNat - 4) :: r.reads }

/-- The polynomial and degree in force. -/
def fieldOf (f : VV) (e : Engine) : Nat × Nat := (e.field f).getD (4, 2)

/-- VGFMUL. -/
def execVgfmul (id : EngId) (f : VV) (s : State) : Host.Outcome State Fault Refusal :=
  issueWord id (fun e => gfRow f e (vvFree f) [f.va, f.vb] 8 12)
    (onEngine id (laneWrite f fun e i =>
      gfMul (fieldOf f e).1 (fieldOf f e).2 (elem f f.va e i) (elem f f.vb e i))) s

/-- VGFSQR. -/
def execVgfsqr (id : EngId) (f : VV) (s : State) : Host.Outcome State Fault Refusal :=
  issueWord id (fun e => gfRow f e (vvFree f) [f.va] 8 12)
    (onEngine id (laneWrite f fun e i =>
      gfMul (fieldOf f e).1 (fieldOf f e).2 (elem f f.va e i) (elem f f.va e i))) s

/-- VGFINV: 0 gives 0. -/
def execVgfinv (id : EngId) (f : VV) (s : State) : Host.Outcome State Fault Refusal :=
  issueWord id (fun e => gfRow f e (vvFree f) [f.va] 64 68)
    (onEngine id (laneWrite f fun e i =>
      let p := (fieldOf f e).1
      let m := (fieldOf f e).2
      gfInv p m (m - 1) (gfRed p m (elem f f.va e i) 64) 1)) s

/-- The row of a carry-less product: W 0b11 and MS 0 (R139). -/
def clRow (f : VV) : Row :=
  vxuRow f (vvFree f && f.ms == 0#3 && f.w == 3#2) [f.va, f.vb] [f.vd] 8 12

/-- VCLMULLO: the low 64 bits of the carry-less product. -/
def execVclmullo (id : EngId) (f : VV) (s : State) : Host.Outcome State Fault Refusal :=
  issueWord id (fun _ => clRow f)
    (onEngine id (laneWrite f fun e i => clmul (elem f f.va e i) (elem f f.vb e i) 64 % 2 ^ 64)) s

/-- VCLMULHI: the high 64 bits. -/
def execVclmulhi (id : EngId) (f : VV) (s : State) : Host.Outcome State Fault Refusal :=
  issueWord id (fun _ => clRow f)
    (onEngine id (laneWrite f fun e i => clmul (elem f f.va e i) (elem f f.vb e i) 64 / 2 ^ 64)) s

end Sys2Proof.Machine
end

