-- ==== Sys2Proof/Machine/HostBar.lean ====
section
/-!
DEFINITION. What a write of the host meets before it reaches a register (R399, R523, R544), and the counts over queues
and instances (R346, R374, R668).
-/
namespace Sys2Proof.Machine

/-- The configuration is full: instances 0 to 255 admit work, else 0 to 15 (R523). -/
def State.fullConfig (s : State) : Bool := s.lcc.config == 2

/-- A VF that is not enabled is absent (R340). -/
def State.present (s : State) (i : Nat) : Bool := i == 0 || (s.link.vfEnable && decide (i ≤ s.link.numVf))

/-- What a function shows in configuration space beside the link's registers (R7, R339, R340). -/
structure FnConfig where
  vendor : Nat
  device : Nat
  classCode : Nat
  serial : BitVec 64
  totalVfs : Nat
  firstVfOffset : Nat
  vfStride : Nat
  /-- Supported page sizes: bit k stands for 4 KiB × 2^k. -/
  pageSizes : Nat
  /-- The VF BAR0: 64-bit, non-prefetchable, and its size for each VF. -/
  vfBar64 : Bool
  vfBarPrefetch : Bool
  vfBarSize : Nat
deriving DecidableEq, Repr

/-- The configuration space of function `i` (R7, R339, R340). -/
def fnConfig (i : Nat) : FnConfig where
  vendor := 0x1E5C
  device := if i = 0 then 0x5120 else 0x5121
  classCode := 0x108000
  serial := Config.dsn
  totalVfs := 255
  firstVfOffset := 1
  vfStride := 1
  pageSizes := 0x7F
  vfBar64 := true
  vfBarPrefetch := false
  vfBarSize := 0x40000

/-- The VF that follows from the SR-IOV capability: VF n, at First VF Offset plus n − 1 strides, is instance n (R340). -/
def vfFunction (n : Nat) : Nat := (fnConfig 0).firstVfOffset + (n - 1) * (fnConfig 0).vfStride

/-- A write to an instance's page: before readiness as R544 lays down, to an absent function nothing, and outside the
configuration's range as an unlisted offset (R399, R523). -/
def State.pageWrite (s : State) (i : Nat) (f : State → State) : State :=
  if !s.present i then s
  else if !s.boot.ready then s.bringupAccess i
  else if decide (15 < i) && !s.fullConfig then s.raiseHiu 10 i 0 0
  else f s

/-! ## Queues -/

/-- Descriptors taken and not yet ready (R374). -/
def Queue.active (x : Queue) : Nat := x.notReady.length + x.hereWait.length

/-- Completion-store places a queue holds (R668). -/
def Queue.places (x : Queue) : Nat := x.active + (x.ready.filter fun c => !c.ownPlace).length

/-- The sum of a count over the 16 queues of an instance. -/
def Instance.sumQueues (x : Instance) (f : Queue → Nat) : Nat :=
  ((List.range 16).map fun q => f (mget dfltQueue x.queues q)).foldl (· + ·) 0

/-- ACTIVE, WAITING and the places of an instance (R374, R384, R668). -/
def State.instActive (s : State) (i : Nat) : Nat := (s.inst i).sumQueues Queue.active
def State.instWaiting (s : State) (i : Nat) : Nat := (s.inst i).sumQueues fun x => x.ready.length
def State.instPlaces (s : State) (i : Nat) : Nat := (s.inst i).sumQueues Queue.places

/-- The registers of an instance (R397). -/
def instReg (i : Nat) : Nat := 0x1000 + 0x10 * i
def State.activeMax (s : State) (i : Nat) : Nat := fld (s.reg (instReg i + 8)) 0 14

/-- The sum of ACTIVE_MAX over all instances (R346). -/
def State.allocSum (s : State) : Nat := ((List.range 256).map fun i => s.activeMax i).foldl (· + ·) 0

/-- The HIU does nothing for the instance: it is FROZEN, SAVED or in a Function Level Reset (R384, R386). -/
def Instance.held (x : Instance) : Bool := x.st == .frozen || x.st == .saved || x.st == .inFlr

/-- Sizes and bases of a queue's rings (R349). -/
def State.sqSize (s : State) (i q : Nat) : Nat := 2 ^ fld (s.reg (qpReg i q)) 0 4
def State.cqSize (s : State) (i q : Nat) : Nat := 2 ^ fld (s.reg (qpReg i q)) 8 4
def State.sqBase (s : State) (i q : Nat) : Nat :=
  (s.reg (qpReg i q + 0x08)).toNat + (s.reg (qpReg i q + 0x0C)).toNat * 2 ^ 32
def State.cqBase (s : State) (i q : Nat) : Nat :=
  (s.reg (qpReg i q + 0x10)).toNat + (s.reg (qpReg i q + 0x14)).toNat * 2 ^ 32

/-- The producer phase of an index on a ring (R352). -/
def phaseOf (t size : Nat) : Nat := (t / size + 1) % 2

end Sys2Proof.Machine
end

