-- ==== Sys2Proof/Machine/Staging.lean ====
section
/-!
DEFINITION. Staging of engine calls (R215 to R219, R666), the slip of a start beat and stream windows.
-/
namespace Sys2Proof.Machine

/-- Writes a byte string into an extent of a frame, from byte `j` on (R197). -/
def putExt (m : Map Byte) (r : Resv) (en f : Nat) : Nat → Bytes → Map Byte
  | _, [] => m
  | j, b :: t => putExt (wrByte m (extAddr r en f j) b) r en f (j + 1) t

/-- A cluster after bytes are written into an extent of a frame from its byte `off` on, with correct parity (R197, R579). -/
def Cluster.putExtent (k : Cluster) (r : Resv) (en f off : Nat) (b : Bytes) : Cluster :=
  let n := min b.length (r.length - off)
  { k with csm := putExt k.csm r en f off (b.take n)
           csmBad := k.csmBad.filter fun a => !((List.range n).any fun j => extAddr r en f (off + j) == a) }

/-- Writes bytes into an extent of the frame a half holds. -/
def State.putHalf (s : State) (h : Half) (r : Resv) (b : Bytes) : State :=
  let k := (s.cl (h.unit / 32)).commitAll
  s.setCl (h.unit / 32) (k.putExtent r (h.unit % 32) h.frame 0 b)

/-- A staging mover writes bytes into an extent of a running peal: a store of the engine in the same beat lands after them
(R67, R179, R218; log entry 31). -/
def State.fillHalf (s : State) (h : Half) (r : Resv) (b : Bytes) : State :=
  let k := (s.cl (h.unit / 32)).commit (s.eng h.unit).localBeat
  s.setCl (h.unit / 32) (k.putExtent r (h.unit % 32) h.frame 0 b)

/-- Reads `n` bytes of an extent of the frame a half holds. -/
def State.getHalf (s : State) (h : Half) (r : Resv) (n : Nat) : Bytes :=
  let k := (s.cl (h.unit / 32)).commitAll
  (List.range n).map fun j => rdByte k.csm (extAddr r (h.unit % 32) h.frame j)

/-- The extent of a kind that a variant has at most one of. -/
def Variant.ext (v : Variant) (kind : Nat) : Option Resv := v.resvs.find? fun r => r.kind == kind

/-- The place of a stream extent in the input: after CSM_IN and the streams before it (R215). -/
def Variant.streamOff (v : Variant) (k : Nat) : Nat :=
  v.extLen 1 + ((v.resvs.take k).filter fun r => r.kind == 4).foldl (fun n r => n + r.length) 0

/-- A key block set joins the key-port buffer of a half's cluster. -/
def State.putKey (s : State) (h : Half) (x : KpKey) : State :=
  let k := s.cl (h.unit / 32)
  s.setCl (h.unit / 32) { k with kpb := k.kpb ++ [x] }

/-- The key-port form of a key's shares for engine `en`, cut to the reserved blocks (R192). -/
def kpOf (call en num blocks : Nat) (attr : W32) (orphan : Bool) (sh : Bytes × Bytes) : KpKey :=
  let n := 512 * blocks
  { call := call, engine := en, out := false, num := num, len := min sh.1.length n, share0 := sh.1.take n
    share1 := sh.2.take n, masters := b2n (bit32 attr 29) + 2 * b2n (bit32 attr 28), exportable := bit32 attr 31, orphan := orphan
    bad := false }

/-- A key a call names is gone, or its chain is stale (R421, R23). -/
def State.keyStale (s : State) (c : Call) (n : Nat) : Bool :=
  let h := c.keyHandle n
  h != 0 && !(s.handleOk c.inst h && s.chainOk (hIndex h))

/-- The read of a key's record: a record in host memory outside the windows is a miss, which is counted (R31, R432). -/
def State.hostRecord (s : State) (c : Call) (i : Nat) (r : HostRead) : HostRead × State :=
  let k := s.slot i
  if k.loc != 2 then (r, s)
  else if !s.windowOk c.inst k.addr k.rlen false then (.busError, s.windowMiss c.inst c.queue)
  else (r, s.raiseRead c.inst c.queue r)

/-- Delivers the key of one KEY_IN reservation to one half, or gives the status that ends the call (R215, R423,
R432). -/
def State.deliver (s : State) (k : Nat) (c : Call) (h : Half) (r : Resv) (rec : HostRead) : Option Nat × State :=
  let hd := c.keyHandle r.place
  if hd = 0 then (none, s)
  else if s.keyStale c r.place then (none, s.putKey h (kpOf k (h.unit % 32) r.place r.length 0#32 true ([], [])))
  else
    let i := hIndex hd
    let hr := s.hostRecord c i rec
    match hr.2.readKey i hr.1 with
    | .fail st s => (some st, s)
    | .ok key s => (none, s.putKey h (kpOf k (h.unit % 32) r.place r.length (s.slot i).attr false (s.keyShares i key)))

/-- Delivers every KEY_IN key of a list of reservations to a half, up to the first failure. -/
def State.deliverAll (s : State) (k : Nat) (c : Call) (h : Half) (recs : List HostRead) :
    List Resv → Option Nat × State
  | [] => (none, s)
  | r :: t => match s.deliver k c h r (recs.getD r.place .busError) with
    | (some st, s) => (some st, s)
    | (none, s) => s.deliverAll k c h recs t

/-- Delivers the KEY_IN keys to every half of a call. -/
def State.deliverHalves (s : State) (k : Nat) (c : Call) (v : Variant) (recs : List HostRead) :
    List Half → Option Nat × State
  | [] => (none, s)
  | h :: t => match s.deliverAll k c h recs (v.resvs.filter fun r => r.kind == 5) with
    | (some st, s) => (some st, s)
    | (none, s) => s.deliverHalves k c v recs t

/-- KEY_RAND reservations of a variant in key-number order (R666). -/
def Variant.rands (v : Variant) : List Nat :=
  (List.range 4).filter fun n => v.resvs.any fun r => r.kind == 7 && r.place == n

/-- Puts the KEY_RAND blocks and the empty output keys of a call into the key-port buffer of a half. -/
def State.putRest (s : State) (k : Nat) (c : Call) (v : Variant) (h : Half) : State :=
  let en := h.unit % 32
  let s := (v.rands.zip c.rand).foldl (fun s p =>
    let s := s.countDelivery
    s.putKey h (kpOf k en p.1 1 0xB0000000#32 false (s.freshShares p.2))) s
  c.okeys.foldl (fun s o =>
    let a := (s.slot o.slot).attr
    s.putKey h { call := k, engine := en, out := true, num := o.num, len := 0, share0 := [], share1 := []
                 masters := b2n (bit32 a 29) + 2 * b2n (bit32 a 28), exportable := bit32 a 31, orphan := false
                 bad := false }) s

/-- Writes the input bytes of a call into CSM_IN of a half; a second run has its streams staged too (R215, R219). -/
def State.putInput (s : State) (c : Call) (v : Variant) (h : Half) (b : Bytes) : State :=
  let s := match v.ext 1 with
    | some r => s.putHalf h r b
    | none => s
  if c.lates = 0 then s
  else (List.range v.resvs.length).foldl (fun s k =>
    match v.resvs[k]? with
    | some r => if r.kind = 4 then s.putHalf h r (b.drop (v.streamOff k)) else s
    | none => s) s


/-- TREE_BEGIN (R271). -/
def isTreeBegin (op : Nat) : Bool := op == 0x68 || op == 0x70

/-- The KEY_RAND blocks of a call, drawn once (R215, R233). -/
def State.drawRand (s : State) (c : Call) (v : Variant) : Option (List Bytes × State) :=
  if c.rand.isEmpty then s.drawBlocks v.rands.length else some (c.rand, s)

/-- The tag of a tree's counter, drawn at the first staging of TREE_BEGIN (R445). -/
def State.drawTag (s : State) (c : Call) : Option (Nat × State) :=
  match isTreeBegin c.opcode, c.counter with
  | true, some n =>
    if c.replays + c.lates = 0 ∨ c.stagedG = 0 then
      s.draw256.map fun r =>
        let tag := r.1.toNat % 2 ^ 64
        (tag, r.2.setCtr n { s.ctr n with limit := 0, tag := tag })
    else some (c.tag, s)
  | _, _ => some (c.tag, s)

/-- What the staging of a call draws; none while the bank cannot serve all of it (R215, R445, R463). -/
def State.drawStaging (s : State) (c : Call) (v : Variant) : Option (List Bytes × Nat × State) :=
  (s.drawRand c v).bind fun r => (r.2.drawTag c).map fun t => (r.1, t.1, t.2)

/-- The input of a call: outside the windows or in error it ends the call (R31, R217). -/
def State.readInput (s : State) (c : Call) (input : HostRead) : Option Bytes × State :=
  if c.inLen = 0 then (some [], s)
  else if !s.windowOk c.inst c.inAddr c.inLen false then (none, s.windowMiss c.inst c.queue)
  else match input with
    | .ok b => (some (padTo c.inLen b), s)
    | r => (none, s.raiseRead c.inst c.queue r)

/-- A planned half on engine `i` of a call whose next peal has length `n` moves behind a peal that overlaps it. -/
def Half.behind (h : Half) (i start len n : Nat) : Half :=
  if h.unit = i ∧ h.start < start + len ∧ start < h.start + n then { h with start := alignTo (start + len) (i % 32) } else h

/-- A call whose next peal is planned and not yet started, after a peal was put on engine `i`. -/
def Call.behind (c : Call) (i start len : Nat) : Call :=
  if c.st == .between || c.st == .staging || c.st == .staged then
    { c with place := c.place.map fun h => h.behind i start len c.curLen }
  else c

/-- A peal planned on an engine and not yet started, a later attempt's among them, moves behind one that now overlaps it
(R187, R229). -/
def State.replan (s : State) (k i start len : Nat) : State :=
  { s with sch := { s.sch with calls := s.sch.calls.map fun e =>
      (e.1, if e.1 = k then e.2 else e.2.map fun c => c.behind i start len) } }

/-- The start and end of the other peals planned on engine `i` that start before local beat `b`. -/
def State.plannedBefore (s : State) (i b : Nat) : List (Nat × Nat) :=
  s.allCalls.flatMap fun e => if isEngineOp e.2.opcode then
    (e.2.place.filter fun h => h.unit == i && h.res.isNone && decide (h.start < b)).map fun h => (h.start, h.start + e.2.curLen)
  else []

/-- The start of a slipped peal on engine `i`: the first beat that meets R214, which looks at the engine's running peal alone.
A peal planned to start at or after it makes way; one that starts before it runs first (R187, R216). -/
def State.slipStart (s : State) (i gMin : Nat) (vec : Bool) : Nat :=
  let k := s.cl (i / 32)
  let g := if vec then max gMin ((s.vecReady (i / 32)).getD 0) else gMin
  let run := match (s.eng i).peal with | some p => p.start + p.len | none => 0
  let b := alignTo (max (k.firstAt g) run) (i % 32)
  let b := (s.plannedBefore i b).foldl (fun m x => max m x.2) b
  alignTo b (i % 32)

/-- Moves the halves of a call to the first starts that meet R214 at or after a global beat. -/
def State.moveStarts (s : State) (k : Nat) (c : Call) (gMin : Nat) : List Half → List Half → State
  | [], done => s.setCall k (some { c with place := done.reverse })
  | h :: t, done =>
    let vec := ((s.eng h.unit).resident.map (·.vec)).getD false
    let st := s.slipStart h.unit gMin vec
    State.moveStarts (s.replan k h.unit st c.curLen) k c gMin t ({ h with start := st } :: done)

/-- A call whose staging ended less than 2 global beats before its start, or whose start has come before its vector
domain is ON or its engine reloaded, starts later; the slip is counted (R85, R216, R234). -/
def execStartSlip (call : BitVec 32) (s : State) : Host.Outcome State Fault Refusal :=
  let k := call.toNat
  .next (match s.call k with
  | none => s
  | some c =>
    let late (h : Half) : Bool := decide ((s.cl (h.unit / 32)).globalOf h.start < c.stagedG + 2)
    let dark (h : Half) : Bool :=
      ((((s.eng h.unit).resident.map (·.vec)).getD false && (s.cl (h.unit / 32)).vpwr != .on) || (s.eng h.unit).needReload)
        && decide ((s.cl (h.unit / 32)).globalOf h.start ≤ s.g)
    if c.st == .staged && c.place.any (fun h => late h || dark h) then
      let gMin := max (c.admitG + s.stageLead) (max (c.stagedG + 2) (if c.place.any dark then s.g + 1 else 0))
      let s := s.setCall k (some { c with place := [] })
      let s := s.moveStarts k c gMin c.place []
      { s with sch := { s.sch with cntSlip := s.sch.cntSlip + 1#32 } }
    else s)

/-- The global beat of peal beat `b` of a half. -/
def State.pealGlobal (s : State) (h : Half) (b : Nat) : Nat := (s.cl (h.unit / 32)).globalOf (h.start + b)

/-- Whether the window of a stream extent can still be filled: no half of the call has passed its WIN_END (R218). -/
def State.windowOpen (s : State) (c : Call) (r : Resv) : Bool :=
  c.place.all fun h => decide (s.g ≤ s.pealGlobal h r.winEnd) && decide ((s.eng h.unit).pealEc ≤ 32 * r.winEnd)

/-- A staging mover completes a stream extent of a running call, not before its WIN_START and not after its WIN_END (R218). -/
def execStreamFillDone (call : BitVec 32) (entry : BitVec 8) (data : HostRead) (s : State) :
    Host.Outcome State Fault Refusal :=
  let k := call.toNat
  let n := entry.toNat
  .next (match s.call k with
  | none => s
  | some c => match c.var.bind fun v => v.resvs[n]?.map fun r => (v, r) with
    | none => s
    | some (v, r) =>
      let len := min r.length (c.inLen - v.streamOff n)
      if c.st == .inPeal && r.kind == 4 && !c.streams.contains n && s.windowOpen c r then
        if len != 0 && !s.windowOk c.inst (c.inAddr + v.streamOff n) len false then s.windowMiss c.inst c.queue
        else match data with
          | .ok b =>
            let s := s.goTo (c.place.foldl (fun m h => max m (s.pealGlobal h r.winStart)) 0)
            let s := c.place.foldl (fun s h => s.fillHalf h r (padTo len b)) s
            s.setCall k (some { c with streams := c.streams ++ [n] })
          | r => s.raiseRead c.inst c.queue r
      else s)

/-- A stream window is not complete at its WIN_END: the engine leaves its peal, in the second run as in the first (R219). -/
def execStreamWindowLate (id : EngId) (entry : BitVec 8) (s : State) : Host.Outcome State Fault Refusal :=
  let n := entry.toNat
  .next (match (s.eng id.idx).peal with
  | none => s
  | some p => match s.call p.call, p.var.resvs[n]? with
    | some c, some r =>
      if r.kind == 4 && !p.attempt && !c.streams.contains n && !p.scrubbed then
        let s := (s.goTo ((s.cl id.cl.toNat).globalOf (p.start + r.winEnd))).leavePeal id.idx .lateWindow
        { s with sch := { s.sch with cntLate := s.sch.cntLate + 1#32 } }
      else s
    | _, _ => s)

end Sys2Proof.Machine
end

