-- ==== Sys2Proof/Machine/Peal.lean ====
section
/-!
DEFINITION. The beats of a peal: start, scrub and release, attempt chains, replay, paired calls, and the way of a
completion into the holding (R61, R78 to R80, R221 to R238).
-/
namespace Sys2Proof.Machine

/-! ## Start beat -/

/-- The call whose planned peal starts next on engine `i` (R187, R214). -/
def State.nextOn (s : State) (i : Nat) : Option (Nat × Call × Half) :=
  (s.allCalls.flatMap fun e =>
    if isEngineOp e.2.opcode && (e.2.st == .staged || e.2.st == .between || e.2.st == .inPeal) then
      (e.2.place.filter fun h => h.unit == i && h.res.isNone).map fun h => (e.1, e.2, h)
    else []).foldl (fun b x => match b with
      | none => some x
      | some y => if x.2.2.start < y.2.2.start then some x else some y) none

/-- The engine address of byte 0 of the extent of a kind, 0 without one (R197). -/
def Variant.base (v : Variant) (kind : Nat) (h : Half) : Nat :=
  match v.ext kind with
  | some r => 0x100000 + extAddr r (h.unit % 32) h.frame 0
  | none => 0

/-- The mask seed at a start beat: the next seed where it is valid, else one step of the current one (R78, R79). -/
def Engine.takeSeed (e : Engine) : Engine :=
  match e.nextSeed with
  | some x => { e with seed := x, nextSeed := none, carry := 0, fresh := true }
  | none => { e with seed := Config.seedStep e.seed, carry := min 65536 (e.carry + 1), fresh := false
                     mrgExh := e.mrgExh || decide (65535 ≤ e.carry) }

/-- The sources a start beat raises for a carried seed (R78, R79). -/
def State.raiseCarry (s : State) (i : Nat) (old : Engine) : State :=
  if old.nextSeed.isSome then s
  else
    let s := s.raise (i / 32) 16 (at32 (i % 32) 17) 0#32
    if old.carry = 65535 then s.raise (i / 32) 17 (at32 (i % 32) 17) 0#32 else s

/-- The engine's state at ec 0 of a start beat (R126, R133, R173, R221). -/
def Engine.begin (e : Engine) (k : Nat) (c : Call) (v : Variant) (h : Half) : Engine :=
  { e.takeSeed with
    vl := 512, qslots := [], gslots := [], loops := [], rets := [], flight := [], pealEc := 0, eri := 0, cause := 0
    leave := none, keyDenied := none, kcuUpset := none, endSeen := false
    callBase := v.base 1 h, outBase := v.base 2 h, maskUse := v.mask, mode := .run
    pc := if c.attempt = 0 then v.entry else v.attEntry
    peal := some { call := k, start := h.start, len := c.curLen, attempt := decide (0 < c.attempt), frame := h.frame
                   var := v, scrubbed := false } }

/-- A start beat: the engine takes or carries its mask seed and begins the code of the peal planned on it, where
staging is complete in time and the vector domain is ON (R78, R85, R214, R216, R221). A peal already planned begins also on a
cluster that has become FATAL or OOS, which R106 only bars from admission (DESIGN CHOICE, log entry 120). -/
def execStartBeat (id : EngId) (s : State) : Host.Outcome State Fault Refusal :=
  let i := id.idx
  let e := s.eng i
  .next (match s.nextOn i with
  | none => s
  | some (k, c, h) => match c.var with
    | none => s
    | some v =>
      let g := (s.cl id.cl.toNat).globalOf h.start
      let vec := (e.resident.map (·.vec)).getD false
      if e.mode != .idle || e.peal.isSome || e.needReload || (vec && (s.cl id.cl.toNat).vpwr != .on)
          || (c.st == .staged && decide (g < c.stagedG + 2)) then s
      else
        let s := (s.goTo g).setEng i (e.begin k c v h)
        (s.raiseCarry i e).setCall k (some { c with st := .inPeal }))

/-- A transfer of the private wire fills the next-seed register and clears MRG_EXH (R78, R80); while VALID is low the
wire brings nothing (R467). -/
def execSeedDelivery (id : EngId) (s : State) : Host.Outcome State Fault Refusal :=
  .next (match s.draw256 with
  | none => s
  | some (x, s) => s.setEng id.idx { s.eng id.idx with nextSeed := some x, mrgExh := false })

/-! ## Scrub beat -/

/-- What a scrub clears in the engine (R61): DMEM keeps the constant region. -/
def Engine.scrub (e : Engine) : Engine :=
  { e with sregs := [], vregs := [], pregs := [], kcu := [], vl := 512, endSeen := false
           dmem := mkeep e.dmem 0 ((e.resident.map (·.constLen)).getD 0)
           badParity := e.badParity.filter fun p => match p with
             | .imem _ => true
             | .dmem a => decide (a < (e.resident.map (·.constLen)).getD 0)
             | _ => false }

/-- The result word of a half (R222). -/
def State.resultWord (s : State) (h : Half) (v : Variant) : Bytes :=
  match v.work with
  | some r =>
    let k := (s.cl (h.unit / 32)).commitAll
    (List.range 8).map fun j => rdByte k.csm (extAddr r (h.unit % 32) h.frame (v.resOff + j))
  | none => []

/-- The fields of a result word (R222). -/
def wordLen (w : Bytes) : Nat := leAt w 0 4
def wordStatus (w : Bytes) : Nat := leAt w 4 1
def wordAccept (w : Bytes) : Nat := leAt w 5 1

/-- A further attempt follows the peal of engine `i`, as far as its own result word says: the blocks it was carried stay
(R228, R229). -/
def State.chainGoesOn (s : State) (i : Nat) (p : Peal) : Bool :=
  match s.call p.call with
  | some c => p.attempt && (s.eng i).leave.isNone && decide (c.attempt < p.var.maxAttempts)
      && wordAccept (s.resultWord { unit := i, frame := p.frame, start := p.start, res := none } p.var) == 0
  | none => false

/-- The scrub beat of a peal: an engine that has not executed END overruns (R62); the engine is cleared, unless the
debugger holds it, and so are the call's input keys (R61), those that a chain carries in the chain's final scrub beat only
(R228). -/
def execScrubBeat (id : EngId) (s : State) : Host.Outcome State Fault Refusal :=
  let i := id.idx
  let c := id.cl.toNat
  .next (match (s.eng i).peal with
  | none => s
  | some p =>
    if p.scrubbed then s
    else
      let s := s.goTo ((s.cl c).globalOf (p.start + p.len - 1))
      let s := if (s.eng i).mode == .run then s.takeExc i .pealOverrun 15 0 else s
      let k := s.cl c
      let keep := s.chainGoesOn i p
      let s := s.setCl c { k with kpb := k.kpb.filter fun x => x.out || keep || x.call != p.call || x.engine != i % 32 }
      let e := s.eng i
      let held := e.mode == .halted || e.mode == .resumed || e.mode == .stepping
      s.setEng i { (if held then e else e.scrub) with peal := some { p with scrubbed := true } })

/-! ## Release beat -/

/-- The shares of output key `n` that a half's peal wrote; none where it wrote no block (R72; log entry 18). -/
def State.outShares (s : State) (k : Nat) (h : Half) (n : Nat) : Option (Bytes × Bytes) :=
  ((s.cl (h.unit / 32)).kpb.find? fun x =>
    x.call == k && x.engine == h.unit % 32 && x.out && x.num == n && x.len != 0).map fun x => (x.share0, x.share1)

/-- What a half left at its release beat. -/
def State.halfResult (s : State) (k : Nat) (h : Half) (v : Variant) : HalfRes :=
  let e := s.eng h.unit
  { word := s.resultWord h v
    out := match v.ext 2 with | some r => s.getHalf h r r.length | none => []
    key0 := s.outShares k h 0, key1 := s.outShares k h 1, leave := e.leave, denied := e.keyDenied }

/-- A result word that completes the call with FAULT_CONTAINED (R223). -/
def badWord (w : Bytes) (outMax : Nat) : Bool :=
  decide (outMax < wordLen w) || !([0x00, 0x06, 0x0D, 0x0E].contains (wordStatus w)) || decide (1 < wordAccept w)
    || leAt w 6 2 != 0

/-- A cause whose call is replayed (R233). -/
def Cause.replays : Cause → Bool
  | .parity => true
  | .kcuCheck => true
  | .mrgHealth => true
  | _ => false

/-- What becomes of a call whose halves have all released. -/
inductive Verdict
  | finish (status : Nat)
  | mismatch
  | replay
  | late
  | retry

/-- An alarm made a half leave its peal. -/
def alarmLeft (ls : List LeaveCause) : Bool := ls.any fun l => match l with | .alarm => true | _ => false

/-- The outcome of having left the peal (R25, R96, R219, R233, R238); none when no half left. -/
def leaveVerdict (c : Call) (ls : List LeaveCause) : Option Verdict :=
  if ls.isEmpty then none
  else if alarmLeft ls then some (.finish 0x11)
  else if ls.any fun l => match l with | .debugHalt => true | _ => false then some (.finish 0x08)
  else if ls.any fun l => match l with | .exc x => !x.replays | _ => false then some (.finish 0x09)
  else if ls.any fun l => match l with | .lateWindow => false | _ => true then
    some (if c.replays = 0 then .replay else .finish 0x09)
  else some (if c.lates = 0 then .late else .finish 0x08)

/-- The key a pair of shares holds. -/
def keyOf (o : Option (Bytes × Bytes)) (n : Nat) : Bytes :=
  match o with
  | some (a, b) => padTo n ((List.range (max a.length b.length)).map fun j => a.getD j 0#8 ^^^ b.getD j 0#8)
  | none => padTo n []

/-- Two halves differ where R237 compares them; in an attempt that both reject, only the ACCEPT bytes are compared. -/
def halvesDiffer (c : Call) (chain : Bool) (a b : HalfRes) : Bool :=
  if chain && (wordAccept a.word == 0 || wordAccept b.word == 0) then wordAccept a.word != wordAccept b.word
  else a.word != b.word || a.out != b.out
    || c.okeys.any fun o =>
        let k (x : HalfRes) := if o.num = 0 then x.key0 else x.key1
        keyOf (k a) o.klen != keyOf (k b) o.klen

/-- A key the call uses, or the chain of an output entry, is stale at release (R421, R416). -/
def State.staleAtEnd (s : State) (c : Call) : Bool :=
  (List.range 4).any (fun n => s.keyStale c n) || c.okeys.any fun o => !s.chainOk o.slot

/-- The verdict over the halves of a call at its release; in a Function Level Reset nothing is run again (R23, R222 to R238,
R386). -/
def State.verdict (s : State) (c : Call) (v : Variant) (rs : List HalfRes) : Verdict :=
  let ls := rs.filterMap (·.leave)
  if (s.inst c.inst).st == .inFlr && !alarmLeft ls then .finish 0x08
  else match leaveVerdict c ls with
  | some x => x
  | none =>
    let w := match rs with | r :: _ => r.word | [] => []
    match rs.findSome? (·.denied) with
      | some st => .finish st
      | none =>
        if s.staleAtEnd c then .finish 0x04
        else if (match rs with | [a, b] => halvesDiffer c v.chain a b | _ => false) then .mismatch
        else if rs.any fun r => badWord r.word v.outMax then .finish 0x09
        else if v.chain && wordAccept w == 0 then
          if c.attempt < v.maxAttempts then .retry else .finish 0x08
        else .finish (wordStatus w)

/-- The key table takes the output keys of a call (R72, R416): each slot is filled, none when a seal finds no IV
(R468). A slot whose key the call wrote no block of returns FREE (log entry 18). -/
def State.takeKeys (s : State) (r : HalfRes) : List OutKey → Option State
  | [] => some s
  | o :: t =>
    let k := if o.num = 0 then r.key0 else r.key1
    if k.isNone then (s.unreserve o.slot).takeKeys r t
    else match s.fillSlot o.slot (keyOf k o.klen) with
      | some s => s.takeKeys r t
      | none => none

/-- The counter of a new tree is bound to it and to the job that carries it (R445). -/
def State.bindCounter (s : State) (c : Call) : State :=
  match c.counter with
  | some n =>
    let s := s.setCtr n { s.ctr n with bound := true, reserved := false }
    c.okeys.foldl (fun s o => if (s.slot o.slot).st == .valid then
      s.setSlot o.slot { s.slot o.slot with rctr := n, treeTag := c.tag } else s) s
  | none => s

/-- A call is released with its status on the cluster of engine `i`: its key-port blocks are cleared, and its
completion enters the FIFO (R24, R61, R224 to R226). After an alarm its CSM frames are cleared at once (R25). -/
def State.release (s : State) (k : Nat) (c : Call) (i status outLen : Nat) (made : List (Nat × Nat)) : State :=
  let cl := i / 32
  let s := if status = 0 then s else s.unreserveAll c.okeys
  let s := s.freeBlocks k c.place
  let s := if status = 0x11 then s.freeFrames c.frees else s
  let s := s.setCl cl { s.cl cl with fifo := (s.cl cl).fifo ++ [k] }
  s.setCall k (some { c with
    status := status, outLen := outLen, made := made, relG := s.g, due := s.g + (cl * c.stagger) % 32, st := .released
    pushed := decide (outLen = 0), inFifo := true, okeys := if status = 0 then [] else c.okeys
    place := if status = 0x11 then [] else c.place })

/-- An OK release: the output keys are taken and validated (R224, R225). -/
def State.releaseOk (s : State) (k : Nat) (c : Call) (i : Nat) (r : HalfRes) : State :=
  match s.takeKeys r c.okeys with
  | none => s.release k c i 0x07 0 []
  | some t =>
    let made := (c.okeys.filter fun o => (t.slot o.slot).st == .valid).map fun o => (o.num, t.handleOf o.slot)
    (t.bindCounter c).release k c i 0 (wordLen r.word) made

/-- The key-port blocks of a half for the next attempt: an output key that the peal wrote becomes input key 2 or 3, one that it
did not write leaves what was carried before, and the output keys are empty again (R228). -/
def carryBlocks (k en : Nat) (l : List KpKey) : List KpKey :=
  let mine (p : KpKey) : Bool := p.call == k && p.engine == en
  let wrote (n : Nat) : Bool := l.any fun p => mine p && p.out && p.num == n && p.len != 0
  (l.filter fun p => !(mine p && !p.out && wrote (p.num - 2))).filterMap (fun p =>
      if mine p && p.out then (if p.len = 0 then none else some { p with out := false, num := p.num + 2 }) else some p)
    ++ (l.filter fun p => mine p && p.out).map fun p => { p with len := 0, share0 := [], share1 := [], bad := false }

/-- The next attempt of a chain: the output keys become input keys 2 and 3, CSM_OUT is zero, CSM_IN holds the input with zero
beyond it, and a new start is planned on the same engine (R221, R227 to R229). -/
def State.nextAttempt (s : State) (k : Nat) (c : Call) (v : Variant) : State :=
  let c := { c with attempt := c.attempt + 1 }
  let s := c.place.foldl (fun s h =>
    let cl := h.unit / 32
    let x := s.cl cl
    let s := s.setCl cl { x with kpb := carryBlocks k (h.unit % 32) x.kpb }
    let s := match v.ext 2 with | some r => s.putHalf h r (List.replicate r.length 0#8) | none => s
    match v.ext 1 with | some r => s.putHalf h r (padTo r.length c.input) | none => s) s
  let s := s.charge c v.attLen c.place.length
  let s := s.setCall k (some { c with place := [] })
  let place := c.place.map fun h =>
    { h with res := none, start := s.startOn h.unit s.g (((s.eng h.unit).resident.map (·.vec)).getD false) }
  s.setCall k (some { c with st := .between, place := place })

/-- A call runs again from its main peal: on another eligible engine of its cluster, or of the clusters of its pair, else on
any other; with none it waits in the pool, where a replay still keeps away from the engines it left (R208, R219, R233,
R238). -/
def State.rerun (s : State) (k : Nat) (c : Call) (v : Variant) (sameAllowed : Bool) : State :=
  let old := c.place.map (·.unit)
  let s := ((s.freeBlocks k c.place).freeFrames c.frees).vecLeft c.frees
  let c := { c with attempt := 0, streams := [], place := [], st := .staging }
  let s := s.setCall k (some c)
  let pooled : State := (s.nowPending c.inst).setCall k (some { c with st := .pool })
  match s.scoreFor c.opcode c.inst with
  | none => pooled
  | some (idx, _, _) =>
    let allow1 (i : Nat) : Bool := !old.contains i && old.any fun j => i / 32 == j / 32
    let allow2 (i : Nat) : Bool := sameAllowed || !old.contains i
    let gMin := s.g + s.stageLead
    let r := match (if sameAllowed then none else s.findPlaces c idx v gMin allow1) with
      | some r => some r
      | none => s.findPlaces c idx v gMin allow2
    match r with
    | none => pooled
    | some (hs, s) =>
      (s.charge c v.pealLen hs.length).setCall k (some { c with st := .staging, place := hs, admitG := s.g, var := some v })

/-- Judges a call whose halves have all released (R223 to R238). -/
def State.judge (s : State) (k : Nat) (c : Call) (v : Variant) (i : Nat) : State :=
  let rs := c.place.filterMap (·.res)
  match s.verdict c v rs with
  | .finish 0 => match rs with
    | r :: _ => s.releaseOk k c i r
    | [] => s
  | .finish st => s.release k c i st 0 []
  | .mismatch => { (s.release k c i 0x09 0 []) with sch := { (s.release k c i 0x09 0 []).sch with cntPairfail := s.sch.cntPairfail + 1#32 } }
  | .replay =>
    let s := { s with sch := { s.sch with cntReplay := s.sch.cntReplay + 1#32 } }
    s.rerun k { c with replays := c.replays + 1, avoidEng := c.place.map (·.unit) } v false
  | .late => s.rerun k { c with lates := c.lates + 1 } v true
  | .retry => s.nextAttempt k c v

/-- The release beat of a peal: the engine is free, and once every half of the call has released the call is judged
(R62, R94, R223, R232, R236). -/
def execReleaseBeat (id : EngId) (s : State) : Host.Outcome State Fault Refusal :=
  let i := id.idx
  let cl := id.cl.toNat
  .next (match (s.eng i).peal with
  | none => s
  | some p =>
    if !p.scrubbed then s
    else
      let s := s.goTo ((s.cl cl).globalOf (p.start + p.len))
      let e := s.eng i
      let held := e.mode == .halted || e.mode == .resumed || e.mode == .stepping
      let dbg := e.dbgOn || ((s.cl cl).dbgEn && (s.cl cl).dbgSel == id.en.toNat)
      let free (s : State) : State :=
        let s := if (e.resident.map (·.vec)).getD false then s.setCl cl { s.cl cl with idleSince := s.g } else s
        s.setEng i { s.eng i with peal := none, mode := if held then e.mode else .idle, leave := none, keyDenied := none, dbgOn := dbg }
      match s.call p.call with
      | none => free s
      | some c =>
        let place := c.place.map fun h => if h.unit = i then { h with res := some (s.halfResult p.call h p.var) } else h
        let c := { c with place := place }
        let s := (free s).setCall p.call (some c)
        if place.all fun h => h.res.isSome then s.judge p.call c p.var i else s)

/-! ## From release to the holding -/


/-- The completion writer moves the head of a cluster's FIFO into the holding (R226). -/
def execCompletionFifoDrain (cluster : BitVec 4) (s : State) : Host.Outcome State Fault Refusal :=
  let x := s.cl cluster.toNat
  .next (match x.fifo with
  | [] => s
  | k :: t =>
    let s := s.setCl cluster.toNat { x with fifo := t }
    match s.call k with
    | some c => s.setCall k (some { c with inFifo := false })
    | none => s)

/-- The stagger and the push have ended: the completion becomes ready, where R372 leaves room (R225). -/
def execStaggerEnd (call : BitVec 32) (s : State) : Host.Outcome State Fault Refusal :=
  let k := call.toNat
  .next (match s.call k with
  | none => s
  | some c =>
    if c.st == .released && !c.inFifo && c.pushed && !s.heldBack c then
      (s.goTo c.due).endCall k c.status true
    else s)

/-! ## The end of staging -/

/-- A parity error of the staging memory: the call is replayed once, and a second error ends it (R582, R233). -/
def State.stageParity (s : State) (k : Nat) (c : Call) (v : Variant) : State :=
  let s := s.raiseHiu 2 c.inst c.queue c.index.toNat
  if c.replays = 0 then
    let s := { s with sch := { s.sch with cntReplay := s.sch.cntReplay + 1#32 } }
    s.rerun k { c with replays := 1 } v false
  else s.endCall k 0x09 false

/-- Staging of an admitted call ends: its inputs, keys and random blocks are in place, or it completes under R217; a parity error of
the staging memory replays it (R582).
While a needed random block waits for the bank, staging goes on. -/
def execStagingDone (call : BitVec 32) (input : HostRead) (records : List HostRead) (s : State) :
    Host.Outcome State Fault Refusal :=
  let k := call.toNat
  .next (match s.call k with
  | none => s
  | some c => match c.st, c.var with
    | .staging, some v =>
      if recParity input then s.stageParity k c v
      else match s.readInput c input with
        | (none, s) => s.endCall k 0x10 false
        | (some b, s) => match s.deliverHalves k c v records c.place with
          | (some st, s) => s.endCall k st false
          | (none, t) => match t.drawStaging c v with
            | none => if s.ent.mode == .halted then t.deniedDraw.endCall k 0x07 false else s
            | some (rand, tag, t) =>
              let c := { c with input := b, rand := rand, tag := tag, st := .staged, stagedG := t.g }
              let t := c.place.foldl (fun s h => (s.putInput c v h b).putRest k c v h) t
              t.setCall k (some c)
    | _, _ => s)

end Sys2Proof.Machine
end

