-- ==== Sys2Proof/Machine/MbxOps.lean ====
section
/-!
DEFINITION. The mailbox: fields of a message, and the answer the Supervisor gives (R379 to R382).
-/
namespace Sys2Proof.Machine

/-- Fields of the inbound message (R379). -/
def Mailbox.cmd (m : Mailbox) : Nat := (rdByte m.inb 0).toNat
def Mailbox.inSeq (m : Mailbox) : Nat := (rdByte m.inb 1).toNat
def Mailbox.len (m : Mailbox) : Nat := leNat (rdBytes m.inb 2 2)
def Mailbox.payload (m : Mailbox) : Bytes := rdBytes m.inb 4 (min m.len 252)

/-- The Supervisor's answer is ready: STATUS and payload (R380). Only a message in service takes one. -/
def State.answerMbx (s : State) (i status : Nat) (payload : Bytes) : State :=
  let x := s.inst i
  if x.mbx.busy && x.mbx.answer.isNone then
    s.setInst i { x with mbx := { x.mbx with taken := true, answer := some (status, payload) } }
  else s

/-- The Supervisor goes on serving a command whose answer comes later. -/
def State.takeMbx (s : State) (i : Nat) : State :=
  let x := s.inst i
  s.setInst i { x with mbx := { x.mbx with taken := true } }

/-- A host buffer named in a payload: address and length (R379). -/
def bufAddr (p : Bytes) (o : Nat) : Nat := leAt p o 8
def bufLen (p : Bytes) (o : Nat) : Nat := leAt p (o + 8) 4

/-- The Supervisor writes an answer's data to a named buffer: too small gives LENGTH_MISMATCH with the length required,
outside the windows HOST_ACCESS_ERROR, else OK with an inline payload (R382). -/
def State.answerBuf (s : State) (i addr room : Nat) (data inline : Bytes) : State :=
  if room < data.length then s.answerMbx i 0x0A (natLe 4 data.length)
  else if !s.windowOk i addr data.length true then (s.windowMiss i 0).answerMbx i 0x10 []
  else (s.hostWrite addr data).answerMbx i 0x00 inline

/-- The Supervisor reads a named buffer: none, with the event of a window miss, where it cannot (R382). -/
def State.readBuf (s : State) (i addr len : Nat) (data : HostRead) : Option Bytes × State :=
  if !s.windowOk i addr len false then (none, s.windowMiss i 0)
  else match data with
    | .ok b => (some (padTo len b), s)
    | r => (none, s.raiseRead i 0 r)

/-- A mailbox command is at its turn: the message in service has this CMD, is not yet answered, and its instance is not
held (R380, R384). -/
def State.mbxTurn (s : State) (i cmd : Nat) : Bool :=
  let x := s.inst i
  x.mbx.busy && !x.mbx.taken && x.mbx.answer.isNone && x.mbx.cmd == cmd
    && !(x.st == .frozen || x.st == .saved || x.st == .inFlr)

/-- Only the Manager may send the command (R383). -/
def managerOnly (cmd : Nat) : Bool := [0x10, 0x11, 0x12, 0x30, 0x31, 0x32, 0x38, 0x39, 0x40, 0x41, 0x42, 0x43, 0x44].contains cmd

/-- The payload length of a command's row; none for an unlisted CMD (R379, R383, R470, R489, R512, R541, R623). -/
def mbxLen (cmd : Nat) : Option Nat :=
  match cmd with
  | 0x01 => some 0 | 0x02 => some 12 | 0x03 => some 44 | 0x04 => some 12
  | 0x10 => some 1 | 0x11 => some 77 | 0x12 => some 13 | 0x20 => some 1
  | 0x28 => some 12 | 0x29 => some 16 | 0x2A => some 92 | 0x2B => some 1
  | 0x30 => some 0 | 0x31 => some 12 | 0x32 => some 12 | 0x38 => some 0 | 0x39 => some 20
  | 0x40 => some 0 | 0x41 => some 12 | 0x42 => some 16 | 0x43 => some 16 | 0x44 => some 0
  | _ => none

/-- The commands an alarm response ends (R551). -/
def alarmEnds (cmd : Nat) : Bool := [0x04, 0x10, 0x11, 0x12, 0x20, 0x32].contains cmd

/-- The status that turns a message away before its command is carried out: an unlisted CMD or a sender that its row does
not allow, a wrong length, a quiescing sender, an alarm (R379, R383, R551). -/
def State.mbxRefusal (s : State) (i : Nat) : Option Nat :=
  let x := s.inst i
  match mbxLen x.mbx.cmd with
  | none => some 0x12
  | some n =>
    if managerOnly x.mbx.cmd && i != 0 then some 0x12
    else if x.mbx.len != n then some 0x0A
    else if x.mbx.cmd != 1 && (x.st == .quiescing || x.st == .quiesced) then some 0x0C
    else if s.alarm && alarmEnds x.mbx.cmd then some 0x11
    else none

/-- Carries out a mailbox command at its turn (R380). -/
def State.mbxRun (s : State) (i cmd : Nat) (f : Bytes → State → State) : State :=
  if !s.mbxTurn i cmd then s
  else match s.mbxRefusal i with
    | some st => s.answerMbx i st []
    | none => f (s.inst i).mbx.payload s

end Sys2Proof.Machine
end

