-- ==== Sys2Proof/Machine/DgeOps.lean ====
section
/-!
DEFINITION. The digest engine's contexts, units and wait list (R477 to R488, R491).
-/
namespace Sys2Proof.Machine

/-- Context `c` of instance `i` has key 8 i + c. -/
def dfltCtx : Nat → DgeCtx := fun _ => DgeCtx.reset
def State.ctx (s : State) (k : Nat) : DgeCtx := mget dfltCtx s.dge.ctxs k
def State.setCtx (s : State) (k : Nat) (c : DgeCtx) : State :=
  { s with dge := { s.dge with ctxs := mset dfltCtx s.dge.ctxs k c } }

/-- Block bytes of an algorithm; none for a reserved code (R477). -/
def digestBlock (alg : Nat) : Option Nat :=
  match alg with
  | 1 => some 64 | 2 => some 64 | 3 => some 128 | 4 => some 128 | 5 => some 128
  | 6 => some 144 | 7 => some 136 | 8 => some 104 | 9 => some 72 | 10 => some 168 | 11 => some 136
  | _ => none

/-- Output bytes of a fixed-length algorithm; 0 for SHAKE (R477). -/
def digestOut (alg : Nat) : Nat := [0, 28, 32, 48, 64, 32, 28, 32, 48, 64, 0, 0].getD alg 0

/-- ALG is SHAKE (R477). -/
def isShake (alg : Nat) : Bool := alg == 10 || alg == 11

/-- The largest declared length (R477). -/
def digestMax (alg : Nat) : Nat := if alg = 1 ∨ alg = 2 then 2 ^ 61 - 1 else 2 ^ 64 - 1

/-- The syndrome details of a DGE source (R493). -/
def State.raiseDge (s : State) (b unit k addr : Nat) : State :=
  s.raise blkDge b (at32 unit 16 ||| at32 (k / 8) 8 ||| at32 (k % 8) 0) (BitVec.ofNat 32 addr)

/-! ## Save records (R485, R487, R488) -/

/-- The Manager has enabled context saving (R485). -/
def State.saveEn (s : State) : Bool := bit32 (s.reg 0x700004) 31

/-- The DRAM address of a save record (R485). -/
def State.saveAddr (s : State) (k : Nat) : Nat := (s.reg 0x700010).toNat + (s.reg 0x700014).toNat * 2 ^ 32 + 512 * k

/-- The context key of this power-up (R488). -/
def State.ctxKey (s : State) : BitVec 256 :=
  kmac256 (s.vaultRoot.getD 0#256)
    ([0x44#8, 0x47#8, 0x45#8, 0x43#8, 0x54#8, 0x58#8] ++ natLe 8 s.keys.bootId.toNat)
    [0x41#8, 0x4B#8, 0x2D#8, 0x44#8, 0x47#8, 0x45#8, 0x43#8, 0x54#8, 0x58#8]

/-- The 512 bytes of the record that carries a context's current save count (R488). -/
def State.saveRecord (s : State) (k : Nat) (c : DgeCtx) : Bytes :=
  let iv := BitVec.ofNat 96 (leNat (natLe 4 k ++ natLe 8 c.saves))
  let body := natLe 1 c.alg ++ natLe 8 c.declen ++ natLe 8 c.rcvd ++ Config.digestState c.alg c.msg
  padTo 512 (gcmSeal s.ctxKey iv [] (padTo 496 body))

/-- A context is saved: its count rises and its record is written (R487, R488). -/
def State.saveCtx (s : State) (k : Nat) : State :=
  let c := { s.ctx k with saves := (s.ctx k).saves + 1, saved := true }
  (s.setCtx k c).dramWrite (s.saveAddr k) (s.saveRecord k c)

/-- The record in DRAM restores: it is the one of the current save (R488); a context that was not saved needs none. -/
def State.restore (s : State) (k : Nat) : Bool × State :=
  let c := s.ctx k
  if c.saved then
    let r := s.dramRead (s.saveAddr k) 512
    (r.1 == s.saveRecord k c, r.2)
  else (true, s)

/-! ## The end of a job -/

/-- A context becomes FREE with a status; its save count goes on, so that no IV comes twice (R478, R488). -/
def State.clearCtx (s : State) (k status : Nat) : State :=
  s.setCtx k { DgeCtx.reset with result := status, saves := (s.ctx k).saves }

/-- The mailbox answer of a job, where the sender still waits for it. -/
def State.answerJob (s : State) (k status : Nat) (payload : Bytes) : State :=
  match (s.ctx k).job with
  | some j => if j.viaMbx then s.answerMbx (k / 8) status payload else s
  | none => s

/-- A job ends without a result and its context becomes FREE (R478). -/
def State.failJob (s : State) (k status : Nat) : State := (s.answerJob k status []).clearCtx k status

/-! ## Units and the wait list (R486) -/

/-- The lowest unit without a job. -/
def Dge.freeUnit (d : Dge) : Option Nat := (List.range 16).find? fun u => !(d.units.any fun p => p.1 == u)

/-- A unit takes a job, whose record is restored first; a record that fails frees the context (R478, R488). -/
def State.startJob (s : State) (u k : Nat) : State :=
  let r := s.restore k
  let s := r.2
  if r.1 then
    let s := s.setCtx k { s.ctx k with saved := false }
    { s with dge := { s.dge with units := s.dge.units ++ [(u, k)] } }
  else (s.raiseDge 2 u k 0).failJob k 0x09

/-- Free units take the head of the wait list, `n` jobs at most (R486). -/
def State.fillUnits (s : State) : Nat → State
  | 0 => s
  | n + 1 => match s.dge.freeUnit, s.dge.wait with
    | some u, k :: t => (State.startJob { s with dge := { s.dge with wait := t } } u k).fillUnits n
    | _, _ => s

/-- A job joins: a free unit starts it, else it waits; joining an empty wait list, it makes the longest holder switch
(R486). -/
def State.joinJob (s : State) (k : Nat) : State :=
  match s.dge.freeUnit with
  | some u => s.startJob u k
  | none =>
    let due := if s.dge.wait.isEmpty then s.dge.units.head?.map (·.1) else s.dge.due
    { s with dge := { s.dge with wait := s.dge.wait ++ [k], due := due } }

/-- A unit gives its job up. -/
def State.dropUnit (s : State) (u : Nat) : State :=
  { s with dge := { s.dge with units := s.dge.units.filter (fun p => p.1 != u)
                               due := if s.dge.due = some u then none else s.dge.due } }

/-- The job of a context leaves its unit and the wait list. -/
def State.dropJob (s : State) (k : Nat) : State :=
  let gone := (s.dge.units.filter fun p => p.2 == k).map (·.1)
  let due := match s.dge.due with | some u => if gone.contains u then none else some u | none => none
  { s with dge := { s.dge with units := s.dge.units.filter (fun p => p.2 != k), due := due
                               wait := s.dge.wait.filter fun x => x != k } }

/-- Contexts of a list become FREE. A running job ends with a status, or with no result delivered (R478). -/
def State.freeCtxList (s : State) (status : Option Nat) : List Nat → State
  | [] => s.fillUnits s.dge.wait.length
  | k :: t =>
    let st := if (s.ctx k).job.isSome then status else none
    let s := match st with | some x => s.answerJob k x [] | none => s
    State.freeCtxList ((s.dropJob k).clearCtx k (st.getD 0)) status t

/-- Every context of an instance becomes FREE with no result delivered: reset, Function Level Reset, or SAVED (R478, R491). -/
def State.freeCtxs (s : State) (i : Nat) : State :=
  s.freeCtxList none ((s.dge.ctxs.filter fun e => e.1 / 8 == i && e.2.st != .free).map (·.1))

/-- Every context becomes FREE at a TMP response; running jobs end ALARM_ABORT (R478). -/
def State.freeAllCtxs (s : State) : State :=
  s.freeCtxList (some 0x11) ((s.dge.ctxs.filter fun e => e.2.st != .free).map (·.1))

end Sys2Proof.Machine
end

