-- ==== Sys2Proof/Machine/HiuQueue.lean ====
section
/-!
DEFINITION. Doorbells, the writing of completion entries and the states of a queue (R349 to R376, R668).
-/
namespace Sys2Proof.Machine

/-! ## Doorbells -/

/-- The completion that R353 writes for a refused doorbell value, in the queue's own place (R668). -/
def overrunCpl (v : BitVec 16) : Cpl where
  index := v
  status := 0x13
  opcode := 0
  cflags := 0
  outBytes := 0
  okey0 := 0
  okey1 := 0
  count := 1
  here := false
  ownPlace := true
  frees := []

/-- Index `t` lies in the covered entries not yet taken. -/
def Queue.covers (x : Queue) (t : BitVec 16) : Bool := decide ((t - x.sqHead).toNat < (x.sqTail - x.sqHead).toNat)

/-- SQ_TAIL takes an accepted doorbell: entries not taken are fetched again, and where the value equals SQ_TAIL so are the
covered copies (R353, R354, R359). -/
def Queue.ring (x : Queue) (v : BitVec 16) : Queue :=
  { x with sqTail := v, waits := false, aheadAt := 0
           ahead := if v = x.sqTail then x.ahead.filter fun e => !x.covers e.1 else x.ahead }

/-- An overrun halts the queue, with a completion in its own place (R353). -/
def State.sqOverrun (s : State) (i q : Nat) (v : BitVec 16) : State :=
  let x := s.queue i q
  (s.setQueue i q { x with st := .halted, haltCause := 1, ready := x.ready ++ [overrunCpl v] }).raiseHiu 6 i q v.toNat

/-- A submission doorbell to a queue that takes it: stored, or an overrun that halts the queue; recorded either way while the
instance is FROZEN, where a recorded overrun has the later ones ignored (R353, R376; log entry 115). -/
def State.sqDoorbell (s : State) (i q : Nat) (v : BitVec 16) : State :=
  let x := s.queue i q
  let tail := x.recSq.getD x.sqTail
  let size := s.sqSize i q
  let beyond := decide (size < (v - x.sqHead).toNat) || decide (size < (v - tail).toNat)
  if !(s.inst i).held then (if beyond then s.sqOverrun i q v else s.setQueue i q (x.ring v))
  else if !x.recBad.isEmpty then s.raiseHiu 30 i q v.toNat
  else if beyond then s.setQueue i q { x with recBad := [(false, v)] }
  else s.setQueue i q { x with recSq := some v }

/-- A write of QP_SQ_DB (R353, R354, R376). -/
def execSqDoorbell (inst : BitVec 8) (queue : BitVec 4) (value : BitVec 16) (s : State) :
    Host.Outcome State Fault Refusal :=
  let i := inst.toNat
  let q := queue.toNat
  .next (s.pageWrite i fun s =>
    let x := s.queue i q
    if x.st == .disabled || x.st == .draining || x.st == .halted then s.raiseHiu 30 i q value.toNat
    else s.sqDoorbell i q value)

/-- A refused completion doorbell halts the queue; a DRAINING one goes on draining (R355, R374). -/
def State.cqRefused (s : State) (i q : Nat) (v : BitVec 16) : State :=
  let x := s.queue i q
  let x := if x.st == .draining then x else { x with st := .halted, haltCause := 2 }
  (s.setQueue i q x).raiseHiu 8 i q v.toNat

/-- A completion doorbell: CQ_HEAD moves forward to at most CQ_TAIL, else the queue halts; while the instance is FROZEN the
doorbell is recorded (R355, R376). -/
def State.cqDoorbell (s : State) (i q : Nat) (v : BitVec 16) : State :=
  let x := s.queue i q
  let head := x.recCq.getD x.cqHead
  let good := decide ((x.cqTail - v).toNat ≤ s.cqSize i q) && decide ((v - head).toNat ≤ (x.cqTail - head).toNat)
  if !(s.inst i).held then (if good then s.setQueue i q { x with cqHead := v } else s.cqRefused i q v)
  else if good then s.setQueue i q { x with recCq := some v }
  else s.setQueue i q { x with recBad := x.recBad ++ [(true, v)] }

/-- A write of QP_CQ_DB (R355, R376). -/
def execCqDoorbell (inst : BitVec 8) (queue : BitVec 4) (value : BitVec 16) (s : State) :
    Host.Outcome State Fault Refusal :=
  let i := inst.toNat
  let q := queue.toNat
  .next (s.pageWrite i fun s =>
    if (s.queue i q).st == .disabled then s.raiseHiu 30 i q value.toNat else s.cqDoorbell i q value)

/-- The recorded doorbells that were accepted are acted on. -/
def Queue.takeRecorded (x : Queue) : Queue :=
  let x := { x with cqHead := x.recCq.getD x.cqHead, recCq := none, recBad := [] }
  match x.recSq with
  | some v => { x.ring v with recSq := none }
  | none => x

/-- The recorded doorbells of a queue are acted on when its instance leaves FROZEN: the accepted ones, then the refused ones,
which halt the queue (R353, R355, R376, R384). -/
def State.takeDoorbells (s : State) (i q : Nat) : State :=
  let x := s.queue i q
  x.recBad.foldl (fun s e => if e.1 then s.cqRefused i q e.2 else s.sqOverrun i q e.2) (s.setQueue i q x.takeRecorded)

/-! ## Completion entries -/

/-- The 32 bytes of a completion entry (R365). -/
def cplBytes (c : Cpl) (q : Nat) (sqHead : BitVec 16) (g phase : Nat) : Bytes :=
  natLe 2 c.index.toNat ++ natLe 2 sqHead.toNat ++ natLe 1 c.status ++ natLe 1 c.opcode ++ natLe 1 c.cflags ++ natLe 1 q
    ++ natLe 4 c.outBytes ++ natLe 4 c.okey0 ++ natLe 4 c.okey1 ++ natLe 2 c.count ++ natLe 2 0 ++ natLe 4 g
    ++ natLe 3 0 ++ natLe 1 phase

/-- The queue writes completions in its state (R374). -/
def Queue.writes (x : Queue) : Bool :=
  match x.st with
  | .running => true
  | .stalled => true
  | .halted => x.haltCause != 2 && x.haltCause != 4
  | .draining => x.haltCause != 4
  | .disabled => false

/-- QP_CTRL.IRQ asks for the vector of the queue (R370). -/
def State.irqFor (s : State) (i q : Nat) (c : Cpl) : Bool :=
  match fld (s.reg (qpReg i q)) 28 2 with
  | 1 => true
  | 2 => c.here || c.status != 0
  | _ => false

/-- The entry written where the stored one fails its parity check (R582). -/
def Cpl.failed (c : Cpl) : Cpl := { c with status := 0x09, outBytes := 0, okey0 := 0, okey1 := 0 }

/-- A ready completion entry is written where the ring has room, its frames are freed, and the vector is raised
(R189, R365 to R374, R582); outside the windows the queue halts with cause 4. -/
def execCompletionWrite (inst : BitVec 8) (queue : BitVec 4) (parity : Bool) (s : State) :
    Host.Outcome State Fault Refusal :=
  let i := inst.toNat
  let q := queue.toNat
  let x := s.queue i q
  .next (match x.ready with
  | [] => s
  | c :: t =>
    let size := s.cqSize i q
    if (s.inst i).held || !x.writes || decide (size ≤ (x.cqTail - x.cqHead).toNat) then s
    else
      let a := s.cqBase i q + 32 * (x.cqTail.toNat % size)
      if !s.windowOk i a 32 true then
        (s.setQueue i q { x with haltCause := 4, st := if x.st == .draining then .draining else .halted }).windowMiss i q
      else
        let s := if parity then s.raiseHiu 1 i q c.index.toNat else s
        let c := if parity then c.failed else c
        let s := s.hostWrite a (cplBytes c q x.sqHead s.g (phaseOf x.cqTail.toNat size))
        let st := if x.st == .stalled && decide (t.length ≤ 32) then .running else x.st
        let x := { x with ready := t, cqTail := x.cqTail + 1#16, cntDone := x.cntDone + 1#32, st := st }
        let s := (s.setQueue i q x).freeFrames c.frees
        if s.irqFor i q c then s.raiseVec i q else s)

/-! ## Enabling and disabling -/

/-- The configuration fields of QP_CTRL: CMODE, IRQ, CLASS, CQ_LOG2, SQ_LOG2 (R400). -/
abbrev qpCfgMask : W32 := 0x73000F0F#32

/-- Stores the configuration fields while the queue is DISABLED; otherwise asking for a change raises HIU_REG_ACCESS
(R375). -/
def State.qpConfig (s : State) (i q : Nat) (v : W32) : State :=
  if (s.queue i q).st == .disabled then s.setReg (qpReg i q) (v &&& qpCfgMask)
  else if v &&& qpCfgMask != s.reg (qpReg i q) &&& qpCfgMask then s.raiseHiu 11 i q 0
  else s

/-- The configuration of a queue passes R350. -/
def State.qpOk (s : State) (i q : Nat) : Bool :=
  let r := s.reg (qpReg i q)
  let ok (n : Nat) : Bool := decide (4 ≤ n) && decide (n ≤ 15)
  s.sqBase i q % 4096 == 0 && s.cqBase i q % 4096 == 0 && ok (fld r 0 4) && ok (fld r 8 4)
    && s.windowOk i (s.sqBase i q) (64 * s.sqSize i q) false && s.windowOk i (s.cqBase i q) (32 * s.cqSize i q) true
    && fld r 28 2 != 3 && fld r 24 2 != 3

/-- A queue that starts: RUNNING with every index 0 (R350). -/
def Queue.start (x : Queue) : Queue :=
  { x with st := .running, haltCause := 0, cfgErr := false, sqTail := 0#16, sqHead := 0#16, cqTail := 0#16
           cqHead := 0#16, recSq := none, recCq := none, recBad := [], waits := false, ahead := [], aheadAt := 0
           notReady := [], hereWait := [], ready := [], batchFrom := 0#16, batchErr := [] }

/-- EN ← 1: the configuration is checked and the queue starts, or CFG_ERR is set (R350, R375, R401). -/
def execQpEnSet (inst : BitVec 8) (queue : BitVec 4) (value : BitVec 32) (s : State) : Host.Outcome State Fault Refusal :=
  let i := inst.toNat
  let q := queue.toNat
  .next (s.pageWrite i fun s =>
    let s := s.qpConfig i q value
    let x := s.queue i q
    if x.st != .disabled then s
    else if s.qpOk i q then s.setQueue i q x.start
    else s.setQueue i q { x with cfgErr := true })

/-- EN ← 0: the queue drains (R374, R375, R401). -/
def execQpEnClear (inst : BitVec 8) (queue : BitVec 4) (value : BitVec 32) (s : State) :
    Host.Outcome State Fault Refusal :=
  let i := inst.toNat
  let q := queue.toNat
  .next (s.pageWrite i fun s =>
    let s := s.qpConfig i q value
    let x := s.queue i q
    if x.st == .running || x.st == .stalled || x.st == .halted then s.setQueue i q { x with st := .draining } else s)

/-- ACTIVE reaches 0 in DRAINING: waiting completions are discarded and counted, and the queue is DISABLED (R374). -/
def execQueueDrainEnd (inst : BitVec 8) (queue : BitVec 4) (s : State) : Host.Outcome State Fault Refusal :=
  let i := inst.toNat
  let q := queue.toNat
  let x := s.queue i q
  .next (if x.st == .draining && x.active == 0 then
    let n := x.ready.length
    let x' := { x with st := .disabled, ready := [], recSq := none, recCq := none, recBad := []
                       cntDiscard := x.cntDiscard + BitVec.ofNat 32 n }
    let s := (s.setQueue i q x').freeCpls x.ready
    if n = 0 then s else s.raiseHiu 29 i q 0
  else s)

/-! ## Limits -/

/-- A write of HIU_INST_LIMIT: refused where the sum would pass 8,192 (R346). -/
def execActiveMaxWrite (inst : BitVec 8) (value : BitVec 32) (s : State) : Host.Outcome State Fault Refusal :=
  let i := inst.toNat
  .next (s.pfWrite fun s =>
    let v := fld value 0 14
    if 8192 < s.allocSum - s.activeMax i + v then s.raiseHiu 11 i 0 0
    else s.setReg (instReg i + 8) (BitVec.ofNat 32 v))

/-- A period of 2^20 global beats ends: the call budgets restart (R348). -/
def execBudgetPeriodEnd (s : State) : Host.Outcome State Fault Refusal :=
  .next (if s.boot.ready then
    let b := s.budgetStart + 0x100000
    let s := s.goTo b
    { s with budgetStart := b, instances := mmap dfltInst (fun _ x => { x with budgetUsed := 0 }) s.instances }
  else s)

/-! ## MSI-X -/

/-- The vectors of a function (R377). -/
def vectors (i : Nat) : Nat := if i = 0 then 64 else 17

/-- Unmasking a vector: a pending message is sent, unless the instance is FROZEN or in a Function Level Reset (R378). -/
def execMsixUnmask (inst : BitVec 8) (vector : BitVec 6) (s : State) : Host.Outcome State Fault Refusal :=
  let i := inst.toNat
  let v := vector.toNat
  let act (s : State) : State :=
    if vectors i ≤ v then s.raiseHiu 10 i 0 0
    else
      let e := s.msixOf i v
      let s := s.setMsix i v { e with masked := false }
      if e.pend && !(s.inst i).held then s.msixSend i v else s
  .next (if i = 0 then s.pfWrite act else s.pageWrite i act)

/-- The pending messages of an instance's unmasked vectors are sent, `n` vectors looked at (R378). -/
def State.sendPending (s : State) (i : Nat) : Nat → State
  | 0 => s
  | n + 1 =>
    let s := s.sendPending i n
    let e := s.msixOf i n
    if e.pend && !e.masked then s.msixSend i n else s

end Sys2Proof.Machine
end

