-- ==== Sys2Proof/Machine/OpPlan.lean ====
section
/-!
DEFINITION. What each descriptor opcode asks of its operand block: keys, parameters, lengths and output keys
(R243 to R279, R301 to R304, R411 to R415, R444, R664).
-/
namespace Sys2Proof.Machine

/-- An input key of an operation (R413). -/
structure KeyReq where
  num : Nat
  /-- The types that match; empty for any. -/
  types : List Nat
  sets : List Nat
  use : Option Nat
  opt : Bool

/-- An output key of an operation (R247, R410). -/
structure OutPlan where
  num : Nat
  type : Nat
  set : Nat
  klen : Nat
  /-- The key field of the parent; none for the instance root. -/
  parent : Option Nat
  /-- The attribute word is fixed: a job, continuation, panel or Goppa record (R414). -/
  fixed : Bool

/-- The demands of an operation. -/
structure Plan where
  keys : List KeyReq
  outs : List OutPlan
  inLo : Nat
  inHi : Nat
  outMin : Nat
  /-- The operation writes the output buffer. -/
  hasOut : Bool
  /-- Check 3 fails on AUX or PARAM. -/
  bad : Bool

/-- An operation without keys, buffers and parameters. -/
def Plan.base : Plan :=
  { keys := [], outs := [], inLo := 0, inHi := 0, outMin := 0, hasOut := false, bad := false }

/-- PARAM bytes from `n` on are all 0. -/
def paramZeroFrom (c : Call) (n : Nat) : Bool := allZero (c.param.drop n)

/-- AUX and PARAM are both 0. -/
def Call.plain (c : Call) : Bool := c.aux == 0 && paramZeroFrom c 0

/-- A required key. -/
def reqKey (n : Nat) (types sets : List Nat) (use : Option Nat) : KeyReq := ⟨n, types, sets, use, false⟩

/-- A key that may be null. -/
def optKey (n : Nat) (types sets : List Nat) (use : Option Nat) : KeyReq := ⟨n, types, sets, use, true⟩

/-- An output key with an attribute word of its own. -/
def outKey (n type set klen : Nat) (parent : Option Nat) : OutPlan := ⟨n, type, set, klen, parent, false⟩

/-- A record with the fixed attribute word. Its length is not given by the spec; it holds at least the bytes of the model's own
layout: 8,192 for a panel or Goppa record, 1,024 else (log entry 21). -/
def recKey (n type op : Nat) (parent : Option Nat) : OutPlan :=
  ⟨n, type, 0, min 16304 ((if type = 0x42 then 8192 else 1024) + Config.recordLen type op), parent, true⟩

/-- USE flag numbers (R412). -/
abbrev uDerive := 0
abbrev uDecaps := 1
abbrev uSign := 2
abbrev uVerify := 3
abbrev uAgree := 4
abbrev uDecrypt := 5
abbrev uEncaps := 6
abbrev uWrap := 7
abbrev uUnwrap := 8

/-- A KEM of ML-KEM's layout (R255, R274): step 0 key generation, 1 encapsulation, 2 decapsulation. -/
def kemPlan (c : Call) (step set tsk ek dk ct klen : Nat) : Plan :=
  let p := { Plan.base with bad := !c.plain }
  match step with
  | 0 => { p with outs := [outKey 0 tsk set dk none], outMin := ek, hasOut := true }
  | 1 =>
    let n := if c.keyHandle 0 = 0 then ek else 0
    { p with keys := [optKey 0 [tsk + 1] [set] (some uEncaps)], inLo := n, inHi := n, outMin := ct, hasOut := true
             outs := [outKey 0 0x01 0 klen (some 0)] }
  | _ => { p with keys := [reqKey 0 [tsk] [set] (some uDecaps)], inLo := ct, inHi := ct
                  outs := [outKey 0 0x01 0 klen (some 0)] }

/-- Bytes of M′ for a MODE above 0 (R250). -/
def digestLen (mode : Nat) : Nat := [0, 32, 64, 32, 64, 32, 64, 64].getD mode 0

/-- MODE, CTX_LEN and DET of AUX (R250). -/
def Call.sigMode (c : Call) : Nat := c.aux / 256 % 16
def Call.ctxLen (c : Call) : Nat := c.aux % 256
def Call.det (c : Call) : Bool := c.aux.testBit 12

/-- AUX of a signature operation is malformed (R250). -/
def badSigAux (c : Call) (modes : List Nat) (det : Bool) : Bool :=
  decide (8192 ≤ c.aux) || !modes.contains c.sigMode || (c.det && !det) || (c.sigMode == 7 && c.ctxLen != 0)

/-- The least and greatest length of ctx ‖ M′ (R250). -/
def msgRange (c : Call) : Nat × Nat :=
  if c.sigMode = 0 then (c.ctxLen, c.ctxLen + 8192) else (c.ctxLen + digestLen c.sigMode, c.ctxLen + digestLen c.sigMode)

/-- A signature scheme: step 0 key generation, 1 signing, 2 verification (R259, R261, R265, R277). -/
def sigPlan (c : Call) (step set tsk tpk pk sk sig : Nat) (modes : List Nat) (det : Bool) : Plan :=
  let r := msgRange c
  match step with
  | 0 => { Plan.base with bad := !c.plain, outs := [outKey 0 tsk set sk none], outMin := pk, hasOut := true }
  | 1 => { Plan.base with bad := badSigAux c modes det || !paramZeroFrom c 0, keys := [reqKey 0 [tsk] [set] (some uSign)]
                          inLo := r.1, inHi := r.2, outMin := sig, hasOut := true }
  | _ =>
    let n := sig + if c.keyHandle 0 = 0 then pk else 0
    { Plan.base with bad := badSigAux c modes false || !paramZeroFrom c 0
                     keys := [optKey 0 [tpk] [set] (some uVerify)], inLo := r.1 + n, inHi := r.2 + n }

/-- The signature parts of an SLH-DSA set in bytes (R266), by s mod 6. -/
def slhParts (s : Nat) : List Nat :=
  [[7856], [12224, 4864], [11904, 4320], [11040, 11664, 11664, 1296], [10592, 12000, 7200],
   [11232, 11360, 11360, 11360, 4544]].getD (s % 6) []

/-- The bytes n of an SLH-DSA set. -/
def slhN (s : Nat) : Nat := [16, 16, 24, 24, 32, 32].getD (s % 6) 16

/-- The whole signature goes into one verify call (R266). -/
def slhOneVerify (s : Nat) : Bool := decide (s % 6 < 3)

/-- The parts of verification: the whole signature, or the parts of R266. -/
def slhVerifyParts (s : Nat) : List Nat := if slhOneVerify s then [(slhParts s).foldl (· + ·) 0] else slhParts s

/-- The largest of a list. -/
def maxOf (l : List Nat) : Nat := l.foldl max 0

/-- SLH-DSA of set `s` (R265 to R268); signing and verification in parts write a continuation. -/
def slhPlan (c : Call) (s step : Nat) : Plan :=
  let n := slhN s
  let set := 0x2C + 3 * s
  let modes := [0, 1, 2, 3, 4, 5, 6]
  match step with
  | 1 =>
    let p := sigPlan c 1 set 0x16 0x17 (2 * n) (4 * n) ((slhParts s).getD 0 0) modes true
    if (slhParts s).length = 1 then p else { p with outs := [recKey 1 0x41 c.opcode (some 0)] }
  | 2 =>
    let p := sigPlan c 2 set 0x16 0x17 (2 * n) (4 * n) ((slhVerifyParts s).getD 0 0) modes false
    if slhOneVerify s then p else { p with outs := [recKey 1 0x41 c.opcode none] }
  | _ => sigPlan c 0 set 0x16 0x17 (2 * n) (4 * n) 0 modes true

/-- SLH-DSA continuations (R267, R268): input or output is the part whose number the continuation's slot keeps; where the set
has no such part the score rejects the record (R269), and any part's length passes. -/
def State.slhContPlan (st : State) (c : Call) (s : Nat) (verify : Bool) : Plan :=
  let set := 0x2C + 3 * s
  let parts := slhParts s
  let part := parts[(st.slot (hIndex (c.keyHandle 1))).tset]?
  if verify then
    { Plan.base with
      bad := !c.plain, keys := [optKey 0 [0x17] [set] (some uVerify), reqKey 1 [0x41] [] none]
      inLo := part.getD ((parts.drop 1).foldl min 12288), inHi := part.getD (maxOf (parts.drop 1))
      outs := [recKey 1 0x41 c.opcode none] }
  else
    { Plan.base with
      bad := !c.plain, keys := [reqKey 0 [0x16] [set] (some uSign), reqKey 1 [0x41] [] none]
      outMin := part.getD 0, hasOut := true, outs := [recKey 1 0x41 c.opcode (some 0)] }

/-! ## Stateful trees (R270 to R273). The type codes are those of the standards (log entry 19). -/

/-- Height and hash bytes of an LMS type. -/
def lmsType (t : Nat) : Option (Nat × Nat) :=
  if 5 ≤ t ∧ t ≤ 9 then some (5 * (t - 4), 32) else if 10 ≤ t ∧ t ≤ 14 then some (5 * (t - 9), 24) else none

/-- Hash bytes and w of an LM-OTS type. -/
def otsType (t : Nat) : Option (Nat × Nat) :=
  match t with | 3 => some (32, 4) | 4 => some (32, 8) | 7 => some (24, 4) | 8 => some (24, 8) | _ => none

/-- Height of one tree and hash bytes of an XMSS OID. -/
def xmssType (t : Nat) : Option (Nat × Nat) :=
  match t with
  | 1 => some (10, 32) | 2 => some (16, 32) | 3 => some (20, 32)
  | 13 => some (10, 24) | 14 => some (16, 24) | 15 => some (20, 24) | _ => none

/-- Height of one layer and hash bytes of an XMSS^MT OID of 2 to 4 layers. -/
def xmssMtType (t : Nat) : Option (Nat × Nat) :=
  match t with
  | 1 => some (10, 32) | 2 => some (5, 32) | 3 => some (20, 32) | 4 => some (10, 32) | 6 => some (20, 32)
  | 0x21 => some (10, 24) | 0x22 => some (5, 24) | 0x23 => some (20, 24) | 0x24 => some (10, 24)
  | 0x26 => some (20, 24) | _ => none

/-- The tree that PARAM of a TREE_BEGIN names: signing opcode, height, hash bytes; none where it is malformed. -/
def Call.tree (c : Call) : Option (Nat × Nat × Nat) :=
  let a := beNat (c.param.take 4)
  let b := beNat ((c.param.drop 4).take 4)
  let l := c.pbyte 8
  if c.opcode = 0x68 then
    match lmsType a, otsType b with
    | some (h, m), some (n, w) =>
      if m = n && c.pbyte 9 == 0 && (if c.keyHandle 0 = 0 then decide (1 ≤ l) && decide (l ≤ 4) else l == 0) then
        some (0x6B + (if w = 8 then 2 else 0) + (if m = 32 then 1 else 0), h, m)
      else none
    | _, _ => none
  else if b != 0 || l != 0 then none
  else match c.pbyte 9 with
    | 0 => (xmssType a).map fun x => (0x73, x.1, x.2)
    | 1 => (xmssMtType a).map fun x => (0x73, x.1, x.2)
    | _ => none

/-- Bytes of one signature of a tree (R273, log entry 19): LMS by opcode, or one XMSS layer. -/
def treeSigLen (op h n : Nat) : Nat :=
  match op with
  | 0x6B => 12 + n + 51 * n + h * n
  | 0x6C => 12 + n + 67 * n + h * n
  | 0x6D => 12 + n + 26 * n + h * n
  | 0x6E => 12 + n + 34 * n + h * n
  | _ => 4 + n + (if n = 32 then 67 else 51) * n + h * n

/-- The length of a tree entry whose stored chain has `n` bytes (R271): seeds, identifier, root and chain (log entry
21). -/
def treeEntryLen (n : Nat) : Nat := min 16304 (256 + n)

/-- The length of the chain stored above a tree (R271, log entry 19): none for a top tree; a lower tree adds its parent's
signature and, for LMS, its own public key to its parent's chain. -/
def treeChain (lms : Bool) (top : Bool) (upChain upSig n : Nat) : Nat :=
  if top then 0 else upChain + upSig + (if lms then 24 + n else 0)

/-- The least and greatest length of a stateful signature of a family, of the supported sets (R270, R273): LMS to HSS of 4
levels, XMSS, XMSS^MT of 2 to 4 layers. -/
def treeSigRange (set : Nat) : Nat × Nat :=
  match set with
  | 1 => (treeSigLen 0x6D 5 24, 4 * treeSigLen 0x6C 25 32 + 3 * 56)
  | 2 => (treeSigLen 0x73 10 24, treeSigLen 0x73 20 32)
  | _ => (2 * treeSigLen 0x73 10 24, 4 * treeSigLen 0x73 10 32)

/-- The least and greatest length of a stateful public key (R271). -/
def treePkRange (set : Nat) : Nat × Nat := if set = 1 then (52, 60) else (52, 68)

/-- A verification with stateful keys: [pk] ‖ M′ ‖ σ, M′ of 0 to 8,192 bytes; what the codes in the input fix beyond these bounds
is the score's to judge (R245, R273; log entry 109). -/
def treeVerifyPlan (c : Call) (set : Nat) (sets : List Nat) (bad : Bool) : Plan :=
  let r := treeSigRange set
  let k := if c.keyHandle 0 = 0 then treePkRange set else (0, 0)
  { Plan.base with bad := bad, keys := [optKey 0 [0x19] sets (some uVerify)], inLo := k.1 + r.1, inHi := k.2 + 8192 + r.2 }

/-- The stateful operations 0x68 to 0x74. -/
def State.treePlan (s : State) (c : Call) : Plan :=
  let trees := if c.opcode < 0x70 then [0x6B, 0x6C, 0x6D, 0x6E] else [0x73]
  let job := s.slot (hIndex (c.keyHandle 1))
  let par := s.slot (hIndex (c.keyHandle 0))
  match c.opcode with
  | 0x68 => { Plan.base with bad := c.aux != 0 || c.tree.isNone, keys := [optKey 0 [0x18] trees none]
                             outs := [recKey 1 0x40 c.opcode (some 0)] }
  | 0x70 => { Plan.base with bad := c.aux != 0 || c.tree.isNone, keys := [optKey 0 [0x18] trees none]
                             outs := [recKey 1 0x40 c.opcode (some 0)] }
  | 0x69 => { Plan.base with bad := !c.plain, keys := [reqKey 1 [0x40] [] none], outMin := 512 * job.tn, hasOut := true
                             outs := [recKey 1 0x40 c.opcode (some 1)] }
  | 0x71 => { Plan.base with bad := !c.plain, keys := [reqKey 1 [0x40] [] none], outMin := 512 * job.tn, hasOut := true
                             outs := [recKey 1 0x40 c.opcode (some 1)] }
  | 0x6F => treeVerifyPlan c 1 [0x01] (!c.plain)
  | 0x74 => treeVerifyPlan c (if c.keyHandle 0 = 0 then 2 + c.pbyte 9 else par.set) [0x02, 0x03]
      (c.aux != 0 || !allZero (c.param.take 9) || decide (1 < c.pbyte 9) || (c.keyHandle 0 != 0 && !paramZeroFrom c 0))
  | op =>
    if op = 0x6A ∨ op = 0x72 then
      { Plan.base with
        bad := !c.plain, keys := [optKey 0 [0x18] trees (some uSign), reqKey 1 [0x40] [] none], hasOut := true
        outMin := if c.keyHandle 0 = 0 then (if op = 0x6A then 28 + job.tn else 4 + 2 * job.tn)
                  else treeSigLen par.tset par.height par.tn
        outs := [outKey 0 0x18 job.tset (treeEntryLen job.chain) none] }
    else
      { Plan.base with
        bad := !c.plain, keys := [reqKey 0 [0x18] [op] (some uSign)], hasOut := true
        inLo := par.height * par.tn, inHi := par.height * par.tn + 8192
        outMin := par.chain + treeSigLen op par.height par.tn }

/-- Row bytes, public key, private key and ciphertext of a McEliece set, with mt (R274). -/
def mceRow (x : Nat) : Nat := [340, 420, 628, 677, 816].getD x 0
def mceSk (x : Nat) : Nat := [6492, 13608, 13932, 13948, 14120].getD x 0
def mceCt (x : Nat) : Nat := [96, 156, 208, 194, 208].getD x 0
def mceMt (x : Nat) : Nat := [768, 1248, 1664, 1547, 1664].getD x 0

/-- Classic McEliece, 0x90 to 0x9B (R274 to R276). -/
def State.mcePlan (s : State) (c : Call) : Plan :=
  let op := c.opcode
  let set := (s.slot (hIndex (c.keyHandle 1))).tset
  let badSet := c.aux != 0 || !paramZeroFrom c 1 || decide (4 < c.pbyte 0)
  match op with
  | 0x90 => { Plan.base with bad := badSet, outMin := 8, hasOut := true
                             outs := [recKey 0 0x42 op none, recKey 1 0x40 op none] }
  | 0x91 => { Plan.base with
      bad := !c.plain, outMin := 8, hasOut := true
      keys := [optKey 0 [0x42] [] none, reqKey 1 [0x40] [] none, optKey 2 [0x42] [] none, optKey 3 [0x42] [] none]
      outs := [recKey 0 0x42 op (some 1), recKey 1 0x40 op (some 1)] }
  | 0x92 => { Plan.base with
      bad := !c.plain, outMin := 8, hasOut := true, keys := [reqKey 0 [0x42] [] none, reqKey 1 [0x40] [] none]
      outs := [outKey 0 0x1C (0x97 + set) (mceSk set) none] }
  | 0x93 => { Plan.base with
      bad := c.aux != 0 || !paramZeroFrom c 2, keys := [reqKey 1 [0x40] [] none, reqKey 2 [0x42] [] none]
      outMin := 4 * mceMt set, hasOut := true }
  | 0x94 => { Plan.base with bad := badSet, outs := [recKey 1 0x40 op none] }
  | 0x95 =>
    let n := leAt c.param 2 2 * mceRow set
    { Plan.base with
      bad := c.aux != 0 || !paramZeroFrom c 4, keys := [reqKey 1 [0x40] [] none], inLo := n, inHi := min n 24576
      outs := [recKey 1 0x40 op (some 1)] }
  | 0x96 => { Plan.base with bad := !c.plain, keys := [reqKey 1 [0x40] [] none], outMin := mceCt set, hasOut := true
                             outs := [outKey 0 0x01 0 32 none] }
  | _ => { kemPlan c 2 op 0x1C 0 (mceSk (op - 0x97)) (mceCt (op - 0x97)) 32 with outs := [outKey 0 0x01 0 32 none] }

/-- A derivation (R279). -/
def kdfPlan (c : Call) : Plan :=
  let first := c.aux / 256
  let n := c.aux % 128
  let wrap := c.pbyte 0 == 2
  { Plan.base with
    bad := decide (64 < first) || c.aux.testBit 7 || decide (n < 16) || decide (64 < n) || decide (2 < c.pbyte 0)
      || (wrap && n != 32) || !paramZeroFrom c 1
    keys := [reqKey 0 [0x01] [] (some uDerive)], inLo := first, inHi := first + 1024
    outs := [outKey 0 (if wrap then 0x02 else 0x01) 0 n (some 0)] }

/-- The library operations (R255 to R279). -/
def State.libPlan (s : State) (c : Call) : Option Plan :=
  let op := c.opcode
  let ed (step set pk sig : Nat) (modes : List Nat) := some (sigPlan c step set 0x22 0x24 pk pk sig modes false)
  if 0x01 ≤ op ∧ op ≤ 0x12 then
    let j := (op - 1) / 6
    some (kemPlan c ((op - 1) % 6 / 2) (0x01 + 6 * j) 0x10 ([800, 1184, 1568].getD j 0) ([1632, 2400, 3168].getD j 0)
      ([768, 1088, 1568].getD j 0) 32)
  else if 0x14 ≤ op ∧ op ≤ 0x22 then
    let j := (op - 0x14) / 5
    some (sigPlan c ((op - 0x14) % 5 / 2) (0x14 + 5 * j) 0x12 0x13 ([1312, 1952, 2592].getD j 0)
      ([2560, 4032, 4896].getD j 0) ([2420, 3309, 4627].getD j 0) [0, 1, 2, 3, 4, 5, 6, 7] true)
  else if 0x24 ≤ op ∧ op ≤ 0x29 then
    let j := (op - 0x24) / 3
    some (sigPlan c ((op - 0x24) % 3) (0x24 + 3 * j) 0x14 0x15 ([897, 1793].getD j 0) ([1281, 2305].getD j 0)
      ([666, 1280].getD j 0) [0, 1, 2, 3, 4, 5, 6] false)
  else if 0x2C ≤ op ∧ op ≤ 0x4F then some (slhPlan c ((op - 0x2C) / 3) ((op - 0x2C) % 3))
  else if 0x50 ≤ op ∧ op ≤ 0x67 then
    let i := (op - 0x50) / 2
    if op % 2 = 0 then if (slhParts i).length = 1 then none else some (s.slhContPlan c i false)
    else if slhOneVerify i then none else some (s.slhContPlan c i true)
  else if 0x68 ≤ op ∧ op ≤ 0x74 then some (s.treePlan c)
  else if 0x84 ≤ op ∧ op ≤ 0x8C then
    let j := (op - 0x84) / 3
    some (kemPlan c ((op - 0x84) % 3) (0x84 + 3 * j) 0x1A ([2249, 4522, 7245].getD j 0) ([2305, 4586, 7317].getD j 0)
      ([4433, 8978, 14421].getD j 0) 64)
  else if 0x90 ≤ op ∧ op ≤ 0x9B then some (s.mcePlan c)
  else if 0xA0 ≤ op ∧ op ≤ 0xA3 then some (kdfPlan c)
  else match op with
    | 0x78 => some { Plan.base with bad := !c.plain, outMin := 32, hasOut := true, outs := [outKey 0 0x20 0x78 32 none] }
    | 0x7A => some { Plan.base with bad := !c.plain, outMin := 56, hasOut := true, outs := [outKey 0 0x20 0x7A 56 none] }
    | 0x79 => some { Plan.base with bad := !c.plain, inLo := 32, inHi := 32, keys := [reqKey 0 [0x20] [0x78] (some uAgree)]
                                    outs := [outKey 0 0x01 0 32 (some 0)] }
    | 0x7B => some { Plan.base with bad := !c.plain, inLo := 56, inHi := 56, keys := [reqKey 0 [0x20] [0x7A] (some uAgree)]
                                    outs := [outKey 0 0x01 0 56 (some 0)] }
    | 0x7C => ed 0 0x7C 32 64 [0, 2]
    | 0x7D => ed 1 0x7C 32 64 [0, 2]
    | 0x7E => ed 2 0x7C 32 64 [0, 2]
    | 0x7F => ed 0 0x7F 57 114 [0, 4]
    | 0x80 => ed 1 0x7F 57 114 [0, 4]
    | 0x81 => ed 2 0x7F 57 114 [0, 4]
    | 0x9C => some { Plan.base with
        bad := c.aux != 0, keys := [reqKey 0 [0x10] [0x07] (some uDecaps), reqKey 1 [0x20] [0x78] (some uAgree)]
        inLo := 1120, inHi := 1120, outs := [outKey 0 0x01 0 32 (some 0)] }
    | 0x9D => some { Plan.base with bad := c.aux != 0, inLo := 1216, inHi := 1216, outMin := 1120, hasOut := true
                                    outs := [outKey 0 0x01 0 32 none] }
    | 0x9E => some { Plan.base with
        bad := c.aux != 0, keys := [reqKey 0 [0x10] [0x0D] (some uDecaps), reqKey 1 [0x20] [0x7A] (some uAgree)]
        inLo := 1624, inHi := 1624, outs := [outKey 0 0x01 0 32 (some 0)] }
    | 0x9F => some { Plan.base with bad := c.aux != 0, inLo := 1624, inHi := 1624, outMin := 1624, hasOut := true
                                    outs := [outKey 0 0x01 0 32 none] }
    | _ => none

/-- Public types that KEY_PUBLIC_LOAD takes, with the sets of each (R411, R664). -/
def publicSets (t : Nat) : List Nat :=
  match t with
  | 0x11 => [0x01, 0x07, 0x0D] | 0x13 => [0x14, 0x19, 0x1E] | 0x15 => [0x24, 0x27]
  | 0x17 => (List.range 12).map fun s => 0x2C + 3 * s
  | 0x19 => [0x01, 0x02, 0x03] | 0x1B => [0x84, 0x87, 0x8A] | 0x24 => [0x78, 0x7A, 0x7C, 0x7F]
  | 0x31 => [0] | 0x33 => [0x00, 0x01, 0x02, 0x80] | _ => []

/-- The key-table operations (R444). -/
def State.keyPlan (s : State) (c : Call) : Option Plan :=
  let k0 := s.slot (hIndex (c.keyHandle 0))
  match c.opcode with
  | 0xA8 =>
    let t := c.pbyte 0
    let n := c.pbyte 1
    some { Plan.base with
      bad := c.aux != 0 || !paramZeroFrom c 2 || !(t == 1 || t == 2) || decide (n < 16) || decide (64 < n)
        || (t == 2 && n != 32)
      keys := [optKey 0 [] [] none], outs := [outKey 0 t 0 n (some 0)] }
  | 0xA9 => some { Plan.base with bad := decide (3 < c.aux) || !paramZeroFrom c 0
                                  keys := [⟨0, [], [], none, c.aux.testBit 1⟩] }
  | 0xAA => some { Plan.base with bad := !c.plain, keys := [reqKey 0 [] [] none], outMin := 32, hasOut := true }
  | 0xAB => some { Plan.base with bad := c.aux != 0 || !paramZeroFrom c 4, keys := [reqKey 0 [] [] none] }
  | 0xAC => some { Plan.base with bad := !c.plain, keys := [reqKey 0 [] [] none, reqKey 1 [0x02] [] (some uWrap)]
                                  outMin := 8 * ((8 + k0.klen + 7) / 8) + 8, hasOut := true }
  | 0xAD => some { Plan.base with
      bad := c.aux != 0 || !paramZeroFrom c 2 || !((publicSets (c.pbyte 0)).contains (c.pbyte 1))
      inHi := 2 ^ 32, outs := [outKey 0 (c.pbyte 0) (c.pbyte 1) (min c.inLen maxKey) none] }
  | 0xAE => some { Plan.base with bad := decide (1 < c.aux) || !paramZeroFrom c 0, keys := [reqKey 0 [] [] none]
                                  outMin := 80 + k0.klen, hasOut := true }
  | 0xAF => some { Plan.base with bad := !c.plain, keys := [optKey 0 [] [] none, optKey 1 [] [] none]
                                  inLo := 81, inHi := 16384 }
  | _ => none

/-- The modulus size of PARAM is one the units take (R302). -/
def goodK (k : Nat) : Bool := decide (1024 ≤ k) && decide (k ≤ 16384) && k % 64 == 0

/-- The fields of an RSA operation are malformed (R302). -/
def badRsa (c : Call) (pss label : Bool) : Bool :=
  decide (8192 ≤ c.aux) || (c.aux.testBit 12 && !pss) || decide (c.hash < 1) || decide (6 < c.hash)
    || (c.aux % 256 != 0 && !label) || !paramZeroFrom c 2
    || (if c.keyHandle 0 = 0 then !goodK (leAt c.param 0 2) else leAt c.param 0 2 != 0)

/-- The curve code of an EC call is malformed, or KEY3 does not go with it (R303). -/
def badCurve (c : Call) : Bool :=
  !([0x00, 0x01, 0x02, 0x80].contains (c.pbyte 0)) || !paramZeroFrom c 1 || (c.pbyte 0 != 0x80 && c.keyHandle 3 != 0)

/-- AUX of an ECDSA call is malformed (R303). -/
def badDet (c : Call) : Bool :=
  decide (8192 ≤ c.aux) || c.aux % 256 != 0 || (if c.det then decide (c.hash < 1) || decide (6 < c.hash) else c.hash != 0)

/-- The curve record of an EC call (R303). -/
def curveKey (c : Call) : KeyReq := ⟨3, [0x34], [0x80], none, c.pbyte 0 != 0x80⟩

/-- Bytes of a private RSA record: p, q, dp, dq, qInv, n and e (R305, log entry 17). -/
def rsaRecLen (k : Nat) : Nat := 7 * k / 16 + 4

/-- The MAU operations (R301 to R304, R314). -/
def State.mauPlan (s : State) (c : Call) : Option Plan :=
  let k8 := s.rsaBits c / 8
  let f := s.curveF c
  let n := s.curveN c
  let code := c.pbyte 0
  let pub := if c.keyHandle 0 = 0 then k8 + 4 else 0
  let h := hashLen c.hash
  match c.opcode with
  | 0xB0 =>
    let k := leAt c.param 0 2
    let e := leAt c.param 2 4
    some { Plan.base with bad := c.aux != 0 || !goodK k || e % 2 == 0 || decide (e < 65537) || !paramZeroFrom c 6
                          outMin := k / 8, hasOut := true, outs := [outKey 0 0x30 0 (rsaRecLen k) none] }
  | 0xB1 => some { Plan.base with bad := badRsa c true false, keys := [reqKey 0 [0x30] [] (some uSign)], inLo := h, inHi := h
                                  outMin := k8, hasOut := true }
  | 0xB2 => some { Plan.base with bad := badRsa c true false, keys := [optKey 0 [0x31] [] (some uVerify)]
                                  inLo := pub + h + k8, inHi := pub + h + k8 }
  | 0xB3 => some { Plan.base with bad := badRsa c false true, keys := [reqKey 0 [0x30] [] (some uDecrypt)]
                                  inLo := k8 + c.aux % 256, inHi := k8 + c.aux % 256, outMin := k8 - 2 * h - 2, hasOut := true }
  | 0xB4 => some { Plan.base with bad := badRsa c false true, keys := [optKey 0 [0x31] [] (some uEncaps)]
                                  inLo := pub + c.aux % 256, inHi := 16384, outMin := k8, hasOut := true }
  | 0xB5 => some { Plan.base with bad := c.aux != 0 || badCurve c, keys := [curveKey c], outMin := 1 + 2 * f, hasOut := true
                                  outs := [outKey 0 0x32 code n none] }
  | 0xB6 => some { Plan.base with bad := badDet c || badCurve c, keys := [reqKey 0 [0x32] [code] (some uSign), curveKey c]
                                  inLo := 16, inHi := 64, outMin := 2 * n, hasOut := true }
  | 0xB7 =>
    let q := if c.keyHandle 0 = 0 then 1 + 2 * f else 0
    some { Plan.base with bad := badDet c || badCurve c, keys := [optKey 0 [0x33] [code] (some uVerify), curveKey c]
                          inLo := q + 16 + 2 * n, inHi := q + 64 + 2 * n }
  | 0xB8 => some { Plan.base with bad := c.aux != 0 || badCurve c
                                  keys := [reqKey 0 [0x32] [code] (some uAgree), curveKey c], inLo := 1 + 2 * f
                                  inHi := 1 + 2 * f, outs := [outKey 0 0x01 0 f (some 0)] }
  | 0xB9 => some { Plan.base with bad := !c.plain, inLo := if c.inLen % 6 = 1 then 121 else c.inLen + 1, inHi := 481
                                  outs := [outKey 0 0x34 0x80 c.inLen none] }
  | 0xBA => some { Plan.base with bad := !c.plain, inLo := 12, inHi := 16384, hasOut := true }
  | _ => none

/-- A user operation takes what the variant of its score reserves (R196, R202); type and length of its output keys are
not given by the spec (log entry 20). -/
def userPlan (c : Call) (v : Variant) : Plan :=
  { Plan.base with
    keys := (v.resvs.filter fun r => r.kind == 5).map fun r => optKey r.place [] [] none
    outs := (v.resvs.filter fun r => r.kind == 6).map fun r =>
      outKey r.place 0x01 0 (max 16 (min 64 (Config.recordLen r.place c.opcode))) none
    inHi := v.inMax, outMin := v.outMax, hasOut := v.outMax != 0 }

/-- The demands of a call; none for a reserved opcode (R16, R251). -/
def State.plan (s : State) (c : Call) : Option Plan :=
  let op := c.opcode
  if op < 0xA8 then s.libPlan c
  else if op < 0xB0 then s.keyPlan c
  else if op < 0xC0 then s.mauPlan c
  else match s.scoreFor op c.inst with
    | some (_, _, v) => some (userPlan c v)
    | none => some { Plan.base with keys := (List.range 4).map fun n => optKey n [] [] none, inHi := 2 ^ 32, hasOut := true }

end Sys2Proof.Machine
end

