-- ==== Sys2Proof/Machine/HiuTake.lean ====
section
/-!
DEFINITION. Taking a descriptor: its check byte, the eleven admission checks and the reservations (R22, R356 to R364,
R412 to R416, R428).
-/
namespace Sys2Proof.Machine

/-! ## The check byte (R357) -/

/-- `n` shift steps of the CRC-8 with polynomial 0x07. -/
def crcBits : Nat → Nat → Nat
  | 0, c => c
  | n + 1, c => crcBits n (if 128 ≤ c then ((c * 2) ^^^ 7) % 256 else c * 2 % 256)

/-- The CRC-8 of a byte string. -/
def crc8 (b : Bytes) : Nat := b.foldl (fun c x => crcBits 8 (c ^^^ x.toNat)) 0

/-! ## Attribute words (R412 to R414) -/

/-- The USE flags that the operations ask of a type (R413). -/
def useMask (t : Nat) : Nat :=
  let f (l : List Nat) : Nat := l.foldl (fun m b => m + 2 ^ b) 0
  match t with
  | 0x01 => f [uDerive] | 0x02 => f [uWrap, uUnwrap]
  | 0x10 => f [uDecaps] | 0x1A => f [uDecaps] | 0x1C => f [uDecaps]
  | 0x11 => f [uEncaps] | 0x1B => f [uEncaps]
  | 0x12 => f [uSign] | 0x14 => f [uSign] | 0x16 => f [uSign] | 0x18 => f [uSign] | 0x22 => f [uSign]
  | 0x13 => f [uVerify] | 0x15 => f [uVerify] | 0x17 => f [uVerify] | 0x19 => f [uVerify] | 0x24 => f [uVerify]
  | 0x20 => f [uAgree] | 0x30 => f [uSign, uDecrypt] | 0x31 => f [uVerify, uEncaps] | 0x32 => f [uSign, uAgree]
  | 0x33 => f [uVerify] | _ => 0

/-- The LC bit of the state in force, where it has one (R412). -/
def State.lcBit (s : State) : Option Nat :=
  match s.lc with
  | .mfg => some 26 | .owned => some 25 | .rma => some 24 | _ => none

/-- The LC bit of the state in force is set, or the state has none. -/
def State.lcOk (s : State) (a : W32) : Bool := match s.lcBit with | some b => bit32 a b | none => true

/-- M_USER without EXPORTABLE (R28). -/
def userDenied (a : W32) : Bool := bit32 a 28 && !bit32 a 31

/-- An attribute word for a new entry of a type passes R414. -/
def State.attrOk (s : State) (a : W32) (t : Nat) : Bool :=
  fld a 9 15 == 0 && Nat.land (fld a 0 9) (511 - useMask t) == 0 && fld a 27 3 != 0 && !userDenied a && s.lcOk a

/-- The fixed word of jobs, continuations and panels (R414). -/
def State.fixedAttr (s : State) : W32 := at32 1 29 ||| (match s.lcBit with | some b => at32 1 b | none => 0#32)

/-- The attribute word of an output key. -/
def State.outAttr (s : State) (c : Call) (o : OutPlan) : W32 :=
  if o.fixed then s.fixedAttr else BitVec.ofNat 32 (leAt c.desc (44 + 4 * o.num) 4)

/-- A named parent, or where it is a job, continuation or panel that record's own parent; null gives the instance root
(R247, R415). -/
def State.parentHandle (s : State) (inst h : Nat) : Nat :=
  if h = 0 then s.handleOf inst
  else
    let k := s.slot (hIndex h)
    if 0x40 ≤ k.type ∧ k.type ≤ 0x42 then k.parent else h

/-- The parent of an output key. -/
def State.outParent (s : State) (c : Call) (o : OutPlan) : Nat :=
  s.parentHandle c.inst (match o.parent with | some n => c.keyHandle n | none => 0)

/-- DEPTH under a parent (R415). -/
def State.depthUnder (s : State) (p : Nat) : Nat := (s.slot (hIndex p)).depth + 1

/-! ## Checks 3 to 9 of R22 -/

/-- A field that the operation does not use is not 0 (R243, R244, R247). -/
def State.unusedSet (s : State) (c : Call) (p : Plan) : Bool :=
  let unserved := decide (0xC0 ≤ c.opcode) && (s.scoreFor c.opcode c.inst).isNone
  (List.range 4).any (fun n => c.keyHandle n != 0 && !(p.keys.any fun k => k.num == n))
    || (!unserved && (List.range 2).any fun n => leAt c.desc (44 + 4 * n) 4 != 0 && !(p.outs.any fun o => o.num == n && !o.fixed))
    || (c.inLen == 0 && c.inAddr != 0) || (c.outLenMax == 0 && c.outAddr != 0)

/-- The PAIRED flag of a descriptor, and PAIR_FORCE of its instance (R235). -/
def Call.pairFlag (c : Call) : Bool := c.flags.testBit 1
def State.pairForce (s : State) (i : Nat) : Bool := bit32 (s.reg (0x100100 + 4 * i)) 12

/-- MAU operations that never run paired (R300). -/
def mauUnpaired (op : Nat) : Bool := op == 0xB2 || op == 0xB7 || op == 0xBA

/-- A required key is null, or a key names no valid entry of the instance (check 5, R244). -/
def State.badHandle (s : State) (c : Call) (p : Plan) : Bool :=
  p.keys.any fun k => let h := c.keyHandle k.num
                      if h = 0 then !k.opt else !s.handleOk c.inst h

/-- The flag of the unit's master bit, for the operations of engines and MAUs (R413). -/
def masterBit (op : Nat) : Option Nat :=
  if op < 0xA8 then some 29 else if op < 0xB0 then none else if op < 0xC0 then some 27 else some 28

/-- A named key passes check 7 (R413). -/
def State.keyPermits (s : State) (c : Call) (k : KeyReq) : Bool :=
  let e := s.slot (hIndex (c.keyHandle k.num))
  (k.types.isEmpty || k.types.contains e.type) && (k.sets.isEmpty || k.sets.contains e.set)
    && (match k.use with | some b => bit32 e.attr b | none => true)
    && (match masterBit c.opcode with | some b => bit32 e.attr b | none => true) && s.lcOk e.attr

/-- Check 7 fails: a named key, an output attribute word, a DEPTH of 17, or a rule of one key operation (R413 to R415,
R436, R442). -/
def State.denied (s : State) (c : Call) (p : Plan) : Bool :=
  let k0 := s.slot (hIndex (c.keyHandle 0))
  if c.opcode = 0xA9 then false
  else p.keys.any (fun k => c.keyHandle k.num != 0 && !s.keyPermits c k)
    || p.outs.any (fun o => (!o.fixed && !s.attrOk (s.outAttr c o) o.type) || decide (16 < s.depthUnder (s.outParent c o)))
    || (c.opcode == 0xAC && !bit32 k0.attr 31)
    || (c.opcode == 0xAF && (if c.keyHandle 0 = 0
          then decide (16 < s.depthUnder (s.parentHandle c.inst (c.keyHandle 1))) else k0.st != .lost))

/-- The events of a failed check 7: a refused export (R442), a refused USER bit (R28). -/
def State.raiseDenied (s : State) (c : Call) (p : Plan) : State :=
  if c.opcode = 0xAC then s.raiseKt 3 c.inst (c.keyHandle 0)
  else if p.outs.any fun o => !o.fixed && userDenied (s.outAttr c o) then s.raiseKt 4 c.inst 0
  else s

/-- Check 8 fails (R245). -/
def badLength (c : Call) (p : Plan) : Bool :=
  decide (c.inLen < p.inLo) || decide (p.inHi < c.inLen)
    || (if p.hasOut then decide (c.outLenMax < p.outMin) else c.outLenMax != 0)

/-- Check 9 fails (R343). -/
def State.outsideWindows (s : State) (c : Call) : Bool :=
  !s.windowOk c.inst c.inAddr c.inLen false || !s.windowOk c.inst c.outAddr c.outLenMax true

/-! ## Check 10: room (R348, R428, R445) -/

/-- Reserves one slot, with granules for a vault key (R416, R428); records of a procedure keep what the spec's tables
derive their sizes and counters from (R270 to R276, R445). -/
def State.reserveOne (s : State) (c : Call) (o : OutPlan) : Option (Nat × State) :=
  match s.freeSlot with
  | none => none
  | some i =>
    let p := s.outParent c o
    let job := s.slot (hIndex (c.keyHandle 1))
    let up := s.slot (hIndex (c.keyHandle 0))
    let tree := decide (0x68 ≤ c.opcode) && decide (c.opcode ≤ 0x74)
    let first := (c.tree.getD (0, 0, 0))
    let begin_ := c.opcode == 0x68 || c.opcode == 0x70
    let mce0 := c.opcode == 0x90 || c.opcode == 0x94
    let k := { s.slot i with
      st := .reserved, type := o.type, owner := c.inst, set := o.set, depth := s.depthUnder p, parent := p
      attr := s.outAttr c o, klen := o.klen
      tset := if begin_ then first.1 else if mce0 then c.pbyte 0
        else if o.type = 0x41 then (if c.opcode < 0x50 then 1 else job.tset + 1) else job.tset
      height := if begin_ then first.2.1 else if tree then job.height else 0
      tn := if begin_ then first.2.2 else if tree then job.tn else 0
      chain := if begin_ then treeChain (c.opcode == 0x68) (c.keyHandle 0 == 0) up.chain
                 (treeSigLen up.tset up.height up.tn) first.2.2 else if tree then job.chain else 0
      rctr := if tree && !begin_ then job.rctr else 0xFFFF
      treeTag := if tree && !begin_ then job.treeTag else 0 }
    if o.klen ≤ 32 then some (i, s.setSlot i k)
    else match s.vaultPlace (granules o.klen) with
      | some g => some (i, s.setSlot i { k with loc := 1, addr := s.vaultBase + 1024 * g })
      | none => none

/-- Reserves every output key of a call. -/
def State.reserveAll (s : State) (c : Call) : List OutPlan → Option (List OutKey × State)
  | [] => some ([], s)
  | o :: t => match s.reserveOne c o with
    | none => none
    | some (i, s) => (s.reserveAll c t).map fun r => ({ num := o.num, slot := i, klen := o.klen } :: r.1, r.2)

/-- A free reservation counter, looking at `n` from `i` on (R445). -/
def State.freeCtrAt (s : State) : Nat → Nat → Option Nat
  | 0, _ => none
  | n + 1, i => if (s.ctr i).reserved || (s.ctr i).bound then s.freeCtrAt n (i + 1) else some i

/-- The entry quota of an instance (R428). -/
def State.quota (s : State) (i : Nat) : Nat := fld (s.reg (0x501000 + 0x10 * i)) 0 17

/-- The calls an instance may have admitted in a period; 0 sets no limit (R348). -/
def State.budget (s : State) (i : Nat) : Nat := (s.reg (instReg i + 12)).toNat

/-- What check 10 gives: reservations, or the events of its failure. -/
inductive Room
  | ok (keys : List OutKey) (ctr : Option Nat) (s : State)
  | full (s : State)

/-- Check 10 (R348, R428, R445). -/
def State.room (s : State) (q : Nat) (c : Call) (p : Plan) : Room :=
  let n := p.outs.length
  let b := s.budget c.inst
  if b != 0 && decide (b ≤ (s.inst c.inst).budgetUsed) then .full (s.raiseHiu 22 c.inst q c.index.toNat)
  else if decide (s.freeCount < n) then .full (s.raiseKt 7 c.inst 0)
  else if p.outs.any (fun o => decide (32 < o.klen)) && !s.vaultEn then .full (s.raiseKt 8 c.inst 0)
  else match s.reserveAll c p.outs with
    | none => .full (s.raiseKt 8 c.inst 0)
    | some (keys, t) =>
      if n != 0 && decide (s.quota c.inst < s.usedCount c.inst + n) then .full s
      else if c.opcode = 0x68 ∨ c.opcode = 0x70 then
        match s.freeCtrAt 1024 0 with
        | some k => .ok keys (some k) (t.setCtr k { ResCounter.reset with reserved := true })
        | none => .full s
      else .ok keys none t

/-! ## Check 11: residency (R202, R204, R294) -/

/-- A unit takes calls of the SCH (R294, R296). -/
def Mau.admits (m : Mau) : Bool := !m.down && !m.direct && !m.oos

/-- The score of a call is resident: on one in-service engine, or for a paired call in two clusters (R204); for a MAU
call, one unit qualifies (R294). -/
def State.residentFor (s : State) (c : Call) (paired : Bool) : Bool :=
  if isMauOp c.opcode then (List.range 32).any fun u => (s.mau u).admits
  else if !isEngineOp c.opcode then true
  else match s.scoreFor c.opcode c.inst with
    | none => false
    | some (idx, _, _) =>
      let l := s.loaded.filter fun i =>
        (match (s.eng i).resident with | some r => r.index == idx | none => false) && (s.cl (i / 32)).inService
      if paired then l.any fun i => l.any fun j => i / 32 != j / 32 else !l.isEmpty

/-- The variant of a call may run paired (R235, R300). -/
def State.pairable (s : State) (c : Call) : Bool :=
  if isMauOp c.opcode then !mauUnpaired c.opcode
  else match s.scoreFor c.opcode c.inst with
    | some (_, _, v) => isEngineOp c.opcode && v.pairable
    | none => false

/-! ## The take -/

/-- A call made from a descriptor. -/
def newCall (i q : Nat) (index : BitVec 16) (desc : Bytes) (cls seq g : Nat) : Call where
  inst := i
  queue := q
  index := index
  desc := desc
  cls := cls
  seq := seq
  var := none
  stagger := 0
  paired := false
  st := .pool
  place := []
  admitG := g
  stagedG := 0
  input := []
  rand := []
  okeys := []
  counter := none
  tag := 0
  qIndex := none
  attempt := 0
  replays := 0
  mauReplays := 0
  size := MauSize.none
  avoid := none
  avoidEng := []
  lates := 0
  streams := []
  status := 0
  outLen := 0
  out := []
  made := []
  relG := 0
  due := 0
  pushed := false
  inFifo := false

/-- A descriptor that fails a check is counted and completes with the status of the check (R361). -/
def State.refuse (s : State) (q : Nat) (c : Call) (status : Nat) : State :=
  (s.bump 0x208 1).complete c.inst q (c.cpl status)

/-- A call that passes every check: budget, reservations, and its place among the pending calls or key operations. -/
def State.admitted (s : State) (c : Call) (keys : List OutKey) (ctr : Option Nat) (paired : Bool) : State :=
  let x := s.inst c.inst
  let s := s.setInst c.inst { x with budgetUsed := x.budgetUsed + 1 }
  let keyOp := !isEngineOp c.opcode && !isMauOp c.opcode
  let s := if keyOp then s else s.nowPending c.inst
  let k := s.sch.nextCall
  let s := { s with sch := { s.sch with nextCall := k + 1 } }
  s.setCall k (some { c with
    okeys := keys, counter := ctr, paired := paired, st := if keyOp then .keyOp else .pool
    size := if isMauOp c.opcode then s.mauSize c else MauSize.none })

/-- Checks 2 to 11 of R22 on a taken descriptor. -/
def State.judgeTaken (s : State) (q : Nat) (c : Call) : State :=
  let i := c.inst
  if crc8 (c.desc.take 62) != leAt c.desc 62 1 then (s.raiseHiu 4 i q c.index.toNat).refuse q c 0x02
  else match s.plan c with
  | none => s.refuse q c 0x12
  | some p =>
    if isMauOp c.opcode && mauUnpaired c.opcode && c.pairFlag then s.refuse q c 0x12
    else if decide (4 ≤ c.flags) || p.bad || s.unusedSet c p then (s.raiseHiu 5 i q c.index.toNat).refuse q c 0x01
    else if (s.inst i).st == .quiescing || (s.inst i).st == .quiesced then s.refuse q c 0x0C
    else if s.badHandle c p then s.refuse q c 0x03
    else if c.opcode != 0xA9 && p.keys.any (fun k => c.keyHandle k.num != 0 && !s.chainOk (hIndex (c.keyHandle k.num))) then
      s.refuse q c 0x04
    else if s.denied c p then (s.raiseDenied c p).refuse q c 0x05
    else if badLength c p then s.refuse q c 0x0A
    else if s.outsideWindows c then s.refuse q c 0x10
    else match s.room q c p with
      | .full s => s.refuse q c 0x0B
      | .ok keys ctr t =>
        let can := s.pairable c
        let paired := can && (c.pairFlag || s.pairForce i)
        if !s.residentFor c paired then s.refuse q c 0x0F
        else if c.pairFlag && !can then s.refuse q c 0x12
        else t.admitted c keys ctr paired

/-- The HIU may read entries of a queue: it runs, and the instance holds fewer than ACTIVE_MAX places (R347). -/
def State.mayFetch (s : State) (i q : Nat) : Bool :=
  s.boot.ready && (s.queue i q).st == .running && !(s.inst i).held && decide (s.instPlaces i < s.activeMax i)

/-- The entry at SQ_HEAD is to be taken: a doorbell covers it, and its mark has not failed since the last doorbell (R359). -/
def Queue.due (x : Queue) : Bool := x.sqTail != x.sqHead && !x.waits

/-- The host address of the entry of an index (R351). -/
def State.entryAddr (s : State) (i q : Nat) (t : BitVec 16) : Nat := s.sqBase i q + 64 * (t.toNat % s.sqSize i q)

/-- The mark of an entry, byte 63, equals the producer phase of its index (R352). -/
def State.markOk (s : State) (i q : Nat) (t : BitVec 16) (entry : BitVec 512) : Bool :=
  leAt (natLe 64 entry.toNat) 63 1 == phaseOf t.toNat (s.sqSize i q)

/-- The copy of an entry that was read ahead of its doorbell (R359). -/
def Queue.copy (x : Queue) (t : BitVec 16) : Option (BitVec 512) := (x.ahead.find? fun e => e.1 == t).map (·.2)

/-- A covered entry read fails: the queue halts and one completion in its own place says so (R364, R668). -/
def State.fetchFail (s : State) (i q : Nat) : State :=
  let x := s.queue i q
  let c := { overrunCpl x.sqHead with status := 0x10 }
  (s.setQueue i q { x with st := .halted, haltCause := 3, ready := x.ready ++ [c] }).raiseHiu 12 i q x.sqHead.toNat

/-- The entry at SQ_HEAD is taken and judged, or completes ALARM_ABORT while a response lasts (R22, R360, R388, R582). -/
def State.takeEntry (s : State) (i q : Nat) (entry : BitVec 512) (fault : TakeFault) : State :=
  let x := s.queue i q
  let t := x.sqHead
  let c := newCall i q t (natLe 64 entry.toNat) (fld (s.reg (qpReg i q)) 24 2) s.sch.nextCall s.g
  let s := (s.setQueue i q { x with sqHead := t + 1#16, notReady := x.notReady ++ [t]
                                    ahead := x.ahead.filter fun e => e.1 != t }).bump 0x200 1
  match fault with
  | .descParity => (s.raiseHiu 0 i q t.toNat).complete i q (c.cpl 0x09)
  | .attrParity => (s.raiseHiu 3 i q t.toNat).complete i q (c.cpl 0x09)
  | .none => if s.alarm then s.complete i q (c.cpl 0x11) else s.judgeTaken q c

/-- The covered entry at SQ_HEAD: a copy read ahead is taken without a new read; a read outside the windows fails; a mark that
does not match is counted, and the entry waits for the next doorbell; else the entry is taken (R22, R31, R358, R359, R364). -/
def State.fetchCovered (s : State) (i q : Nat) (entry : BitVec 512) (fault : TakeFault) : State :=
  let x := s.queue i q
  match x.copy x.sqHead with
  | some e => s.takeEntry i q e fault
  | none =>
    if !s.windowOk i (s.entryAddr i q x.sqHead) 64 false then (s.windowMiss i q).fetchFail i q
    else if !s.markOk i q x.sqHead entry then (s.setQueue i q { x with waits := true }).bump 0x204 1
    else s.takeEntry i q entry fault

/-- The next entry beyond SQ_TAIL to be read ahead, and how many of the 8 have then been looked at (R358). -/
def Queue.nextAhead (x : Queue) : Option (BitVec 16 × Nat) :=
  (((List.range 8).drop x.aheadAt).find? fun k => (x.copy (x.sqTail + BitVec.ofNat 16 k)).isNone).map fun k =>
    (x.sqTail + BitVec.ofNat 16 k, k + 1)

/-- An entry beyond SQ_TAIL is read ahead of its doorbell: outside the windows the read is dropped with its event, a mark that
does not match is counted and the entry discarded, else the copy is kept (R31, R358, R359, R364). -/
def State.fetchAhead (s : State) (i q : Nat) (entry : BitVec 512) : State :=
  let x := s.queue i q
  match x.nextAhead with
  | none => s
  | some (t, k) =>
    if !s.windowOk i (s.entryAddr i q t) 64 false then (s.setQueue i q { x with aheadAt := k }).windowMiss i q
    else if !s.markOk i q t entry then (s.setQueue i q { x with aheadAt := k }).bump 0x204 1
    else s.setQueue i q { x with aheadAt := k, ahead := x.ahead ++ [(t, entry)] }

/-- The HIU reads one entry of a queue: the covered entry at SQ_HEAD while one is due, else the next one ahead of the doorbell
(R358, R359). -/
def execDescriptorTake (inst : BitVec 8) (queue : BitVec 4) (entry : BitVec 512) (fault : TakeFault) (s : State) :
    Host.Outcome State Fault Refusal :=
  let i := inst.toNat
  let q := queue.toNat
  .next (if !s.mayFetch i q then s
  else if (s.queue i q).due then s.fetchCovered i q entry fault
  else s.fetchAhead i q entry)

/-- The read of an entry ends in an error, which is reported: of a covered entry it halts the queue, of one read ahead of its
doorbell it is dropped (R364, R402; log entry 114). -/
def execDescriptorFetchFail (inst : BitVec 8) (read : FailedRead) (s : State) :
    Host.Outcome State Fault Refusal :=
  let i := inst.toNat
  let q := read.queue.toNat
  let x := s.queue i q
  .next (if !s.mayFetch i q then s
  else if x.due then
    if (x.copy x.sqHead).isSome then s else (s.raiseHiu (readSource read.error) i q x.sqHead.toNat).fetchFail i q
  else match x.nextAhead with
    | some (t, k) => (s.setQueue i q { x with aheadAt := k }).raiseHiu (readSource read.error) i q t.toNat
    | none => s)

end Sys2Proof.Machine
end

