-- ==== Sys2Proof/Machine/HiuInst.lean ====
section
/-!
DEFINITION. The states of an instance, its reset, Function Level Resets and the link (R384 to R388, R394, R667).
-/
namespace Sys2Proof.Machine

/-! ## Reset of an instance -/

/-- The mailbox of an instance no longer awaits the answer of a command that still runs (R381, R385, R386). -/
def State.forgetOwed (s : State) (i : Nat) : State :=
  let ctxs := mmap (fun _ => DgeCtx.reset) (fun k x =>
    if k / 8 = i then { x with job := x.job.map fun j => { j with viaMbx := false } } else x) s.dge.ctxs
  let trans := if i = 0 then s.lcc.trans.map (fun t => { t with viaMbx := false }) else s.lcc.trans
  let job := s.sd.job.map fun j => if j.owed = some i then { j with owed := none } else j
  { s with dge := { s.dge with ctxs := ctxs }, lcc := { s.lcc with trans := trans }, sd := { s.sd with job := job } }

/-- Clears the mailbox and the MSI-X table of an instance (R385, R386). -/
def State.clearBoxes (s : State) (i : Nat) : State :=
  let s := s.forgetOwed i
  let x := s.inst i
  { s.setInst i { x with mbx := Mailbox.reset } with msix := mclear s.msix (64 * i) 64 }

/-- Every queue of an instance is disabled and its waiting completions are discarded, their frames freed. -/
def State.dropQueues (s : State) (i : Nat) : State :=
  let x := s.inst i
  let s := x.queues.foldl (fun s e => s.freeCpls (e.2.ready ++ e.2.hereWait)) s
  s.setInst i { x with queues := [], budgetUsed := 0 }

/-- The slots whose entries an instance owns. -/
def State.ownedSlots (s : State) (i : Nat) : List Nat :=
  (s.keys.slots.filter fun e => decide (256 ≤ e.1) && e.2.owner == i && e.2.live).map (·.1)

/-- The vault epoch of an instance (R433). -/
def State.epoch (s : State) (i : Nat) : Nat := mget (fun _ => 0) s.bbram.epochs i

/-- The vault epoch of an instance advances (R437). -/
def State.nextEpoch (s : State) (i : Nat) : State :=
  { s with bbram := { s.bbram with epochs := mset (fun _ => 0) s.bbram.epochs i ((s.epoch i + 1) % 2 ^ 32) } }

/-- The ownership pass (R425). -/
def State.ownershipPass (s : State) (i : Nat) : State := (s.destroyAll (s.ownedSlots i)).nextEpoch i

/-- Any hamper nonce held for an instance is erased (R385, R393). -/
def State.dropNonce (s : State) (i : Nat) : State :=
  { s with bbram := { s.bbram with nonces := s.bbram.nonces.filter fun n => n.inst != i } }

/-- The reset of an instance (R385). -/
def State.instReset (s : State) (i : Nat) : State :=
  let s := (((s.dropQueues i).clearBoxes i).dropNonce i).freeCtxs i
  let s := s.ownershipPass i
  let s := s.setInst i { s.inst i with st := .quiesced, quiesce := true, freeze := false, restored := false }
  s.raiseHiu 26 i 0 0

/-! ## Changes of HIU_INST_CTRL -/

/-- A change that the table refuses: no effect, RESET_REFUSED and an access event (R384). -/
def State.refuseCtrl (s : State) (i : Nat) : State :=
  (s.setInst i { s.inst i with resetRefused := true }).raiseHiu 11 i 0 0

/-- A QUIESCING instance without active descriptors is QUIESCED (R384). -/
def State.quiesceDone (s : State) (i : Nat) : State :=
  if (s.inst i).st == .quiescing && s.instActive i == 0 then
    (s.setInst i { s.inst i with st := .quiesced }).raiseHiu 25 i 0 0
  else s

/-- The queues of an instance that leaves FROZEN act on their recorded doorbells; those of a restored instance are
checked against the windows first (R376, R394), `n` queues looked at. -/
def State.thawQueues (s : State) (i : Nat) (check : Bool) : Nat → State
  | 0 => s
  | q + 1 =>
    let s := s.thawQueues i check q
    let x := s.queue i q
    if check && x.st != .disabled && !s.qpOk i q then
      (s.freeCpls x.ready).setQueue i q { x with st := .disabled, cfgErr := true, ready := [], recSq := none, recCq := none
                                                 recBad := [], cntDiscard := x.cntDiscard + BitVec.ofNat 32 x.ready.length }
    else s.takeDoorbells i q

/-- The instance leaves FROZEN by FREEZE ← 0 (R378, R384, R394). -/
def State.thaw (s : State) (i : Nat) : State :=
  let x := s.inst i
  let s := s.thawQueues i x.restored 16
  let s := s.setInst i { s.inst i with freeze := false, restored := false
                                       st := if x.quiesce then .quiesced else .active }
  s.sendPending i (vectors i)

/-- One change of HIU_INST_CTRL under the table of R384. -/
def State.judgeChange (s : State) (i : Nat) (c : CtrlChange) : State :=
  let x := s.inst i
  match c with
  | .word _ => s
  | .quiesce on =>
    if x.quiesce = on then s
    else
      let y := { x with quiesce := on }
      if x.st == .frozen || x.st == .saved then s.setInst i y
      else if on then (s.setInst i { y with st := .quiescing }).quiesceDone i
      else s.setInst i { y with st := .active }
  | .freeze on =>
    if x.freeze = on then s
    else if on then
      if x.st == .quiesced then s.setInst i { x with freeze := true, st := .frozen } else s.refuseCtrl i
    else if x.st == .frozen then s.thaw i
    else s.setInst i { x with freeze := false }
  | .reset =>
    if x.st == .quiesced || x.st == .frozen || x.st == .saved then s.instReset i else s.refuseCtrl i

/-- One write of HIU_INST_CTRL: the fields written with a value other than the one they hold change, one after another
(R667). -/
def State.judgeWord (s : State) (i : Nat) (w : W32) : State :=
  let x := s.inst i
  let q := bit32 w 0
  let f := bit32 w 1
  let l : List CtrlChange := (if x.freeze && !f then [.freeze false] else []) ++ (if x.quiesce != q then [.quiesce q] else [])
    ++ (if !x.freeze && f then [.freeze true] else []) ++ (if bit32 w 2 then [.reset] else [])
  l.foldl (fun s c => s.judgeChange i c) s

/-- A change or a write of HIU_INST_CTRL; during a Function Level Reset it is held (R384, R667). -/
def State.judgeCtrl (s : State) (i : Nat) (c : CtrlChange) : State :=
  let x := s.inst i
  if x.st == .inFlr then s.setInst i { x with heldCtrl := x.heldCtrl ++ [c] }
  else match c with
  | .word w => s.judgeWord i w
  | c => s.judgeChange i c

/-- QUIESCE ← 1 (R384). -/
def execQuiesceSet (inst : BitVec 8) (s : State) : Host.Outcome State Fault Refusal :=
  .next (s.pfWrite fun s => s.judgeCtrl inst.toNat (.quiesce true))

/-- QUIESCE ← 0 (R384). -/
def execQuiesceClear (inst : BitVec 8) (s : State) : Host.Outcome State Fault Refusal :=
  .next (s.pfWrite fun s => s.judgeCtrl inst.toNat (.quiesce false))

/-- ACTIVE reaches 0 while QUIESCING (R384). -/
def execQuiesceDone (inst : BitVec 8) (s : State) : Host.Outcome State Fault Refusal :=
  .next (s.quiesceDone inst.toNat)

/-- FREEZE ← 1 (R384). -/
def execFreezeSet (inst : BitVec 8) (s : State) : Host.Outcome State Fault Refusal :=
  .next (s.pfWrite fun s => s.judgeCtrl inst.toNat (.freeze true))

/-- FREEZE ← 0 (R384). -/
def execFreezeClear (inst : BitVec 8) (s : State) : Host.Outcome State Fault Refusal :=
  .next (s.pfWrite fun s => s.judgeCtrl inst.toNat (.freeze false))

/-- RESET (R384, R385). -/
def execInstanceReset (inst : BitVec 8) (s : State) : Host.Outcome State Fault Refusal :=
  .next (s.pfWrite fun s => s.judgeCtrl inst.toNat .reset)

/-! ## Function Level Resets -/

/-- The running call of a unit. -/
def Mau.runs (m : Mau) (k : Nat) : Bool :=
  match m.run with
  | some h => (m.half h).call == some k
  | none => false

/-- The call runs: in its peal, or in a unit (R386). -/
def State.callRuns (s : State) (e : Nat × Call) : Bool :=
  if isMauOp e.2.opcode then e.2.place.any fun h => (s.mau h.unit).runs e.1 else e.2.st == .inPeal


/-- Ends the calls of a list ABORTED, what they made freed. -/
def State.abortCalls (s : State) : List (Nat × Call) → State
  | [] => s
  | e :: t => ((s.unmake e.2).endCall e.1 0x08 false).abortCalls t

/-- A Function Level Reset of an instance begins: calls that do not run end now, the others at their end (R386). -/
def State.flrBegin (s : State) (i : Nat) : State :=
  let x := s.inst i
  if x.st == .inFlr then s
  else
    let s := ((s.setInst i { x with st := .inFlr, flrFrom := x.st }).forgetOwed i).freeCtxs i
    s.abortCalls (s.allCalls.filter fun e => e.2.inst == i && !s.callRuns e)

/-- A Function Level Reset; during bring-up it acts only on configuration space (R386, R544). -/
def execFlrBegin (inst : BitVec 8) (s : State) : Host.Outcome State Fault Refusal :=
  .next (if s.boot.ready && s.present inst.toNat then s.flrBegin inst.toNat else s)

/-- The queue registers of an instance return to their reset values. -/
def State.resetQueueRegs (s : State) (i : Nat) : State := { s with regs := mclear s.regs (pageBase i + 0x1000) 0x400 }

/-- The last call of the instance has ended: queues, mailbox and MSI-X are reset, the state left returns, and held
changes are judged (R384, R386). -/
def execFlrComplete (inst : BitVec 8) (s : State) : Host.Outcome State Fault Refusal :=
  let i := inst.toNat
  let x := s.inst i
  .next (if x.st == .inFlr && !(s.allCalls.any fun e => e.2.inst == i) then
    let s := ((s.dropQueues i).clearBoxes i).resetQueueRegs i
    let st := if x.flrFrom = .quiescing then .quiesced else x.flrFrom
    let s := s.setInst i { s.inst i with st := st, heldCtrl := [] }
    x.heldCtrl.foldl (fun s c => s.judgeCtrl i c) (s.raiseHiu 21 i 0 0)
  else s)

/-- Begins a Function Level Reset of every instance of a list (R387). -/
def State.flrAll (s : State) (l : List Nat) : State := l.foldl (fun s i => s.flrBegin i) s

/-- Clearing VF Enable acts as a Function Level Reset of every VF, which is then absent (R340, R387). -/
def execVfEnableClear (s : State) : Host.Outcome State Fault Refusal :=
  let s' := if s.boot.ready then s.flrAll ((List.range 256).drop 1) else s
  .next { s' with link := { s'.link with vfEnable := false } }

/-- Link-down or a hot reset: no lane is in use, and every instance is reset (R387, R402). -/
def execLinkDown (s : State) : Host.Outcome State Fault Refusal :=
  let s := { s with link := { s.link with up := false, flit := false, speed := 0, width := 0 } }
  let s := s.raiseHiu 19 0 0 0
  .next (if s.boot.ready then s.flrAll (List.range 256) else s)

/-- The host writes NumVFs and sets VF Enable: those VFs are present (R340). -/
def execVfEnableSet (numVfs : BitVec 8) (s : State) : Host.Outcome State Fault Refusal :=
  .next { s with link := { s.link with numVf := numVfs.toNat, vfEnable := true } }

/-- The rates and widths of R339; Flit mode is the mode of 64 GT/s. -/
def linkOk (speed width : Nat) (flit : Bool) : Bool :=
  decide (1 ≤ speed) && decide (speed ≤ 6) && [1, 2, 4, 8, 16].contains width && flit == (speed == 6)

/-- The link trains into L0 at a rate and width of R339; below x16 or 64 GT/s it is degraded (R398, R402). -/
def execLinkTrained (speed : BitVec 4) (width : BitVec 5) (flit : Bool) (s : State) :
    Host.Outcome State Fault Refusal :=
  .next (if !linkOk speed.toNat width.toNat flit then s
  else
    let s := { s with link := { s.link with up := true, flit := flit, speed := speed.toNat, width := width.toNat } }
    if speed.toNat < 6 ∨ width.toNat < 16 then s.raiseHiu 20 0 0 0 else s)

end Sys2Proof.Machine
end

