-- ==== Sys2Proof/Machine/MauRaw.lean ====
section
/-!
DEFINITION. The raw command words of a MAU, the prologue's checks and what each command does (R315 to R319).
-/
namespace Sys2Proof.Machine

/-! ## Arithmetic -/

/-- `b ^ e mod m`, `n` bits of `e` taken. -/
def powMod (m : Nat) : Nat → Nat → Nat → Nat → Nat
  | 0, _, _, acc => acc
  | n + 1, b, e, acc => powMod m n (b * b % m) (e / 2) (if e % 2 = 1 then acc * b % m else acc)

/-- The extended Euclidean algorithm, `n` divisions at most. -/
def invLoop : Nat → Int → Int → Int → Int → Option Int
  | 0, _, _, _, _ => none
  | n + 1, r0, r1, t0, t1 =>
    if r1 = 0 then if r0 = 1 then some t0 else none
    else invLoop n r1 (r0 % r1) t1 (t0 - r0 / r1 * t1)

/-- The inverse of `a` modulo `m`; 0 when it has none (R317). -/
def modInv (a m : Nat) : Nat :=
  match invLoop (2 * Nat.log2 m + 4) m (a % m) 0 1 with
  | some t => imod t m
  | none => 0

/-- An affine point. -/
abbrev Pt := Nat × Nat

/-- `x - y` modulo `q`. -/
def subMod (q x y : Nat) : Nat := (x % q + q - y % q) % q

/-- The sum of two points of y² = x³ + ax + b over `q`; none is the point at infinity. -/
def ecPlus (q a : Nat) : Option Pt → Option Pt → Option Pt
  | none, r => r
  | p, none => p
  | some p, some r =>
    let line (l : Nat) : Pt :=
      let x := subMod q (subMod q (l * l) p.1) r.1
      (x, subMod q (l * subMod q p.1 x) p.2)
    if p.1 % q = r.1 % q then
      if (p.2 + r.2) % q = 0 then none
      else some (line ((3 * p.1 * p.1 + a) * modInv (2 * p.2) q % q))
    else some (line (subMod q r.2 p.2 * modInv (subMod q r.1 p.1) q % q))

/-- `k` times a point, `n` bits of `k` taken. -/
def ecTimes (q a : Nat) : Nat → Option Pt → Nat → Option Pt → Option Pt
  | 0, _, _, acc => acc
  | n + 1, p, k, acc => ecTimes q a n (ecPlus q a p p) (k / 2) (if k % 2 = 1 then ecPlus q a acc p else acc)

/-- A point as ECADD and ECMUL hold it in slots: 0 with 0 for the point at infinity (R317). -/
def ptIn (p : Pt) : Option Pt := if p = (0, 0) then none else some p
def ptOut (p : Option Pt) : Pt := p.getD (0, 0)

/-- The sum and the multiple of points of raw commands, `n` bits of `k` taken (R317). -/
def ecAdd (q a : Nat) (p r : Pt) : Pt := ptOut (ecPlus q a (ptIn p) (ptIn r))
def ecMul (q a n : Nat) (p : Pt) (k : Nat) : Pt := ptOut (ecTimes q a n (ptIn p) k none)

/-- The point satisfies the curve equation. -/
def onCurve (q a b : Nat) (p : Pt) : Bool := p.2 * p.2 % q == (p.1 * p.1 * p.1 + a * p.1 + b) % q

/-! ## Command words (R316) -/

/-- The fields of a raw command word. -/
def rCmd (w : W64) : Nat := (w >>> 56).toNat % 256
def rLen (w : W64) : Nat := (w >>> 48).toNat % 256 + 1
def rD (w : W64) : Nat := (w >>> 44).toNat % 16
def rA (w : W64) : Nat := (w >>> 40).toNat % 16
def rB (w : W64) : Nat := (w >>> 36).toNat % 16
def rM (w : W64) : Nat := (w >>> 32).toNat % 16
def rImm (w : W64) : Nat := w.toNat % 2 ^ 32

/-- The fields a command uses: D, A, B, M, IMM; none for a reserved code (R317). -/
def rUses (cmd : Nat) : Option (List Bool) :=
  match cmd with
  | 0x01 => some [true, false, false, false, true]
  | 0x02 => some [true, false, false, false, true]
  | 0x03 => some [false, false, false, true, false]
  | 0x04 => some [true, true, true, true, false]
  | 0x05 => some [true, true, true, true, false]
  | 0x06 => some [true, true, true, true, false]
  | 0x07 => some [true, true, false, true, false]
  | 0x08 => some [true, true, false, true, false]
  | 0x09 => some [true, true, false, true, false]
  | 0x0A => some [true, true, true, true, true]
  | 0x0B => some [true, true, false, true, false]
  | 0x10 => some [false, true, true, true, false]
  | 0x11 => some [true, true, false, true, false]
  | 0x12 => some [true, true, true, true, false]
  | 0x13 => some [true, true, true, true, true]
  | _ => none

/-- A point slot is even and below 7 (R318). -/
def badPoint (n : Nat) : Bool := n % 2 == 1 || decide (6 < n)

/-- A word that the prologue refuses for its own fields (R318). -/
def badWordRaw (w : W64) : Bool :=
  match rUses (rCmd w) with
  | none => true
  | some u =>
    let f := [rD w, rA w, rB w, rM w]
    (f.any fun n => decide (7 < n)) || ((u.take 4).zip f).any (fun p => !p.1 && p.2 != 0)
      || (!(u.getD 4 false) && rImm w != 0)
      || (match rCmd w with
          | 0x01 => decide (8 * rLen w < rImm w)
          | 0x02 => decide (8 * rLen w < rImm w)
          | 0x0A => rImm w == 0 || decide (64 * rLen w < rImm w)
          | 0x11 => badPoint (rA w)
          | 0x12 => badPoint (rD w) || badPoint (rA w) || badPoint (rB w)
          | 0x13 => badPoint (rD w) || badPoint (rA w)
          | _ => false)

/-- A command needs a modulus in its M slot, or a curve (R318). -/
def needsMod (cmd : Nat) : Bool := decide (4 ≤ cmd)
def needsCurve (cmd : Nat) : Bool := cmd == 0x11 || cmd == 0x12 || cmd == 0x13

/-- A word comes before the MODSET or ECSET it needs: moduli set so far and whether a curve is. -/
def badOrder (w : W64) (mods : List Nat) (curve : Bool) : Bool :=
  (needsMod (rCmd w) && !mods.contains (rM w)) || (needsCurve (rCmd w) && !curve)

/-- Some word of a list comes too early. -/
def anyEarly : List W64 → List Nat → Bool → Bool
  | [], _, _ => false
  | w :: t, mods, curve =>
    badOrder w mods curve
      || anyEarly t (if rCmd w = 3 then rM w :: mods else mods) (curve || rCmd w == 0x10)

/-- The words of a list (R315). -/
def rawCount (b : Bytes) : Nat := leAt b 0 4
def rawWords (b : Bytes) : List W64 := (List.range (rawCount b)).map fun i => BitVec.ofNat 64 (leAt b (4 + 8 * i) 8)

/-- Data bytes that a list's LOADs take, and output bytes that its STOREs make. -/
def rawLoads (l : List W64) : Nat := ((l.filter fun w => rCmd w == 1).map rImm).foldl (· + ·) 0
def rawStores (l : List W64) : Nat := ((l.filter fun w => rCmd w == 2).map rImm).foldl (· + ·) 0

/-- The prologue refuses a list (R318). -/
def rawRefused (b : Bytes) (outMax : Nat) : Bool :=
  let n := rawCount b
  if n = 0 ∨ 256 < n ∨ b.length < 4 + 8 * n then true
  else
    let l := rawWords b
    l.any badWordRaw || anyEarly l [] false || rawLoads l != b.length - (4 + 8 * n) || decide (outMax < rawStores l)

/-- Times of a command in mc (R317). -/
def tMul (l : Nat) : Nat := (l * l + 7) / 8 + 24
def tInv (l : Nat) : Nat := 128 * l * ((l + 3) / 4 + 2)
def rawTime (w : W64) : Nat :=
  let l := rLen w
  match rCmd w with
  | 0x01 => (rImm w + 63) / 64 + 8
  | 0x02 => (rImm w + 63) / 64 + 8
  | 0x03 => 8 * tMul l
  | 0x04 => 2 * l + 8
  | 0x05 => 2 * l + 8
  | 0x0A => ((5 * rImm w + 3) / 4 + 16) * tMul l
  | 0x0B => tInv l
  | 0x10 => 3 * tMul l
  | 0x11 => 6 * tMul l
  | 0x12 => tInv l + 4 * tMul l
  | 0x13 => rImm w * 14 * tMul l + tInv l
  | _ => tMul l

/-- The list time of R319; a refused list ends with the prologue. -/
def listTime (b : Bytes) (outMax : Nat) : Nat :=
  let l := rawWords b
  4 * rawCount b + (if rawRefused b outMax then 0 else (l.map rawTime).foldl (· + ·) 0)

/-! ## Slots and commands -/

/-- What an unlisted byte of operand memory reads as: 0, or after a macro operation a free value. -/
def MauHalf.dflt (h : MauHalf) : Nat → Byte :=
  match h.junk with
  | none => zeroByte
  | some n => fun a => Config.freeByte (n + a)

/-- Bytes of operand memory. -/
def MauHalf.rd (h : MauHalf) (a n : Nat) : Bytes := (List.range n).map fun i => mget h.dflt h.mem (a + i)

/-- Operand memory with bytes written. -/
def putMem (d : Nat → Byte) (m : Map Byte) : Nat → Bytes → Map Byte
  | _, [] => m
  | a, b :: t => putMem d (mset d m a b) (a + 1) t
def MauHalf.wr (h : MauHalf) (a : Nat) (b : Bytes) : MauHalf := { h with mem := putMem h.dflt h.mem a b }

/-- The value of the low `l` words of a slot (R316, R317). -/
def slotVal (h : MauHalf) (k l : Nat) : Nat := leNat (h.rd (2048 * k) (8 * l))

/-- A half with the low `l` words of a slot written. -/
def setSlotVal (h : MauHalf) (k l v : Nat) : MauHalf := h.wr (2048 * k) (natLe (8 * l) v)

/-- The words of a slot (R316). -/
abbrev slotWords : Nat := 256

/-- What an unlisted modulus slot holds. -/
def dfltMod : Nat → Option MauMod := fun _ => none

/-- The modulus of slot `k`; 1 where none is set. -/
def Mau.modulus (m : Mau) (k : Nat) : Nat := ((mget dfltMod m.mods k).map (·.q)).getD 1

/-- The half that raw and direct commands work on. -/
def Mau.cur (m : Mau) : Nat := m.run.getD 0

/-- A unit whose current half has a slot written. -/
def Mau.put (m : Mau) (k l v : Nat) : Mau := m.setHalf m.cur (setSlotVal (m.half m.cur) k l v)

/-- The value of a slot of the current half. -/
def Mau.val (m : Mau) (k l : Nat) : Nat := slotVal (m.half m.cur) k l

/-- A point of the current half, and a unit with one written. -/
def Mau.pt (m : Mau) (k l : Nat) : Pt := (m.val k l, m.val (k + 1) l)
def Mau.putPt (m : Mau) (k l : Nat) (p : Pt) : Mau := (m.put k l p.1).put (k + 1) l p.2

/-- LOAD: the next data bytes as a big-endian integer, the words of the slot above it zero (R317). -/
def Mau.cLoad (m : Mau) (w : W64) (data : Bytes) : Mau :=
  { m.put (rD w) slotWords (beNat (data.take (rImm w))) with rawData := m.rawData + rImm w }

/-- STORE: the low bytes of a slot to the output, big-endian. -/
def Mau.cStore (m : Mau) (w : W64) : Mau := { m with rawOut := m.rawOut ++ natBe (rImm w) (m.val (rD w) (rLen w)) }

/-- MODSET: a modulus that is even or whose top word is zero is invalid (R319). -/
def Mau.cModset (m : Mau) (w : W64) : Mau :=
  let l := rLen w
  let q := m.val (rM w) l
  { m with rawBad := m.rawBad || q % 2 == 0 || decide (q < 2 ^ (64 * (l - 1)))
           mods := mset dfltMod m.mods (rM w) (some { len := l, q := q }) }

/-- A command whose result is a residue of its sources. -/
def Mau.cMod (m : Mau) (w : W64) (f : Nat → Nat → Nat → Nat) : Mau :=
  let l := rLen w
  m.put (rD w) l (f (m.modulus (rM w)) (m.val (rA w) l) (m.val (rB w) l))

/-- The factor 2 ^ (-64 L) modulo an odd number. -/
def invR (l q : Nat) : Nat := invBeta (64 * l) q

/-- ECSET: the curve over M with a and b. -/
def Mau.cEcset (m : Mau) (w : W64) : Mau :=
  { m with curve := some { m := rM w, a := m.val (rA w) (rLen w), b := m.val (rB w) (rLen w) } }

/-- Modulus, a and b of the curve in force. -/
def Mau.ecParams (m : Mau) : Nat × Nat × Nat :=
  match m.curve with
  | some c => (m.modulus c.m, c.a, c.b)
  | none => (1, 0, 0)

/-- ECCHK, which leaves the other words of its slot 0, ECADD and ECMUL (R317). -/
def Mau.cEcchk (m : Mau) (w : W64) : Mau :=
  let c := m.ecParams
  m.put (rD w) slotWords (b2n (onCurve c.1 c.2.1 c.2.2 (m.pt (rA w) (rLen w))))
def Mau.cEcadd (m : Mau) (w : W64) : Mau :=
  let c := m.ecParams
  let l := rLen w
  m.putPt (rD w) l (ecAdd c.1 c.2.1 (m.pt (rA w) l) (m.pt (rB w) l))
def Mau.cEcmul (m : Mau) (w : W64) : Mau :=
  let c := m.ecParams
  let l := rLen w
  let n := min (rImm w) (64 * l)
  m.putPt (rD w) l (ecMul c.1 c.2.1 n (m.pt (rA w) l) (m.val (rB w) l))

end Sys2Proof.Machine
end

