-- ==== Sys2Proof/Machine/PubKey.lean ====
section
/-!
DEFINITION. What the operations of the MAU and of the library build on from public-key standards: named curves (FIPS 186), encodings
of RFC 8017, nonces of RFC 6979, X25519 and X448 of RFC 7748. The spec names these and does not restate them (log entry 15).
-/
namespace Sys2Proof.Machine

/-! ## Named curves -/

/-- p, a, b, Gx, Gy, n and h of a named curve (R303). -/
def namedCurve (code : Nat) : List Nat :=
  match code with
  | 0 =>
    let p := 2 ^ 256 - 2 ^ 224 + 2 ^ 192 + 2 ^ 96 - 1
    [p, p - 3,
     0x5AC635D8AA3A93E7B3EBBD55769886BC651D06B0CC53B0F63BCE3C3E27D2604B,
     0x6B17D1F2E12C4247F8BCE6E563A440F277037D812DEB33A0F4A13945D898C296,
     0x4FE342E2FE1A7F9B8EE7EB4A7C0F9E162BCE33576B315ECECBB6406837BF51F5,
     0xFFFFFFFF00000000FFFFFFFFFFFFFFFFBCE6FAADA7179E84F3B9CAC2FC632551,
     1]
  | 1 =>
    let p := 2 ^ 384 - 2 ^ 128 - 2 ^ 96 + 2 ^ 32 - 1
    [p, p - 3,
     0xB3312FA7E23EE7E4988E056BE3F82D19181D9C6EFE8141120314088F5013875AC656398D8A2ED19D2A85C8EDD3EC2AEF,
     0xAA87CA22BE8B05378EB1C71EF320AD746E1D3B628BA79B9859F741E082542A385502F25DBF55296C3A545E3872760AB7,
     0x3617DE4A96262C6F5D9E98BF9292DC29F8F41DBD289A147CE9DA3113B5F0B8C00A60B1CE1D7E819D7A431D7C90EA0E5F,
     0xFFFFFFFFFFFFFFFFFFFFFFFFFFFFFFFFFFFFFFFFFFFFFFFFC7634D81F4372DDF581A0DB248B0A77AECEC196ACCC52973,
     1]
  | 2 =>
    let p := 2 ^ 521 - 1
    [p, p - 3,
     0x51953EB9618E1C9A1F929A21A0B68540EEA2DA725B99B315F3B8B489918EF109E156193951EC7E937B1652C0BD3BB1BF073573DF883D2C34F1EF451FD46B503F00,
     0xC6858E06B70404E9CD9E3ECB662395B4429C648139053FB521F828AF606B4D3DBAA14B5E77EFE75928FE1DC127A2FFA8DE3348B3C1856A429BF97E7E31C2E5BD66,
     0x11839296A789A3BC0045C8A5FB42C7D1BD998F54449579B446817AFBD17273E662C97EE72995EF42640C550B9013FAD0761353C7086A272C24088BE94769FD16650,
     0x1FFFFFFFFFFFFFFFFFFFFFFFFFFFFFFFFFFFFFFFFFFFFFFFFFFFFFFFFFFFFFFFFFA51868783BF2F966B7FCC0148F709A5D03BB5C9B8899C47AEBB6FB71E91386409,
     1]
  | _ => []

/-! ## Encodings for RSA -/

/-- The hash of a code of R302. -/
def rsaHash (h : Nat) (m : Bytes) : Bytes :=
  match h with
  | 1 => sha256 m | 2 => sha384 m | 3 => sha512 m | 4 => sha3 32 m | 5 => sha3 48 m | 6 => sha3 64 m | _ => []

/-- MGF1. -/
def mgf1 (h : Nat) (seed : Bytes) (n : Nat) : Bytes :=
  let hl := hashLen h
  ((List.range ((n + hl - 1) / hl)).flatMap fun i => rsaHash h (seed ++ natBe 4 i)).take n

/-- Two strings added bit by bit, as many bytes as both have. -/
def addBytes (a b : Bytes) : Bytes := List.zipWith (· ^^^ ·) a b

/-- The DER prefix of a DigestInfo: its lengths and the last byte of the hash's identifier. -/
def digestInfo (h : Nat) (dig : Bytes) : Bytes :=
  let hl := hashLen h
  [0x30#8, BitVec.ofNat 8 (hl + 17), 0x30#8, 0x0D#8, 0x06#8, 0x09#8, 0x60#8, 0x86#8, 0x48#8, 0x01#8, 0x65#8, 0x03#8, 0x04#8, 0x02#8,
   BitVec.ofNat 8 ([0, 1, 2, 3, 8, 9, 10].getD h 0), 0x05#8, 0x00#8, 0x04#8, BitVec.ofNat 8 hl] ++ dig

/-- EMSA-PKCS1-v1_5 of a digest in `n` bytes. -/
def pkcs1Encode (h n : Nat) (dig : Bytes) : Bytes :=
  let t := digestInfo h dig
  0x00#8 :: 0x01#8 :: (List.replicate (n - t.length - 3) 0xFF#8 ++ 0x00#8 :: t)

/-- The hash that PSS puts over a digest and a salt. -/
def pssHash (h : Nat) (dig salt : Bytes) : Bytes := rsaHash h (List.replicate 8 0#8 ++ dig ++ salt)

/-- EMSA-PSS of a digest with a salt, in `n` bytes with the top bit clear. -/
def pssEncode (h n : Nat) (dig salt : Bytes) : Bytes :=
  let x := pssHash h dig salt
  let db := List.replicate (n - 2 * hashLen h - 2) 0#8 ++ 0x01#8 :: salt
  match addBytes db (mgf1 h x (n - hashLen h - 1)) with
  | [] => []
  | b :: t => (b &&& 0x7F#8) :: t ++ x ++ [0xBC#8]

/-- An encoding of `n` bytes fits a digest under PSS, with a salt of the hash's length. -/
def pssMatches (h n : Nat) (dig em : Bytes) : Bool :=
  let hl := hashLen h
  let m := em.take (n - hl - 1)
  let x := (em.drop (n - hl - 1)).take hl
  let db := addBytes m (mgf1 h x (n - hl - 1))
  let z := n - 2 * hl - 2
  decide (2 * hl + 2 ≤ n) && em.getLast? == some 0xBC#8 && leAt em 0 1 / 128 == 0
    && (match db with | [] => false | b :: t => ((b &&& 0x7F#8) :: t).take (z + 1) == List.replicate z 0#8 ++ [0x01#8])
    && pssHash h dig (db.drop (z + 1)) == x

/-- The encoding of a digest for RSA signing in `k` bits: AUX, digest, random block, whose first bytes are the salt (R302). PSS of a
hash that is too long for the modulus has no encoding, and the spec names no status for it (log entry 15). -/
def rsaEncode (aux k : Nat) (dig rand : Bytes) : Bytes :=
  let h := aux / 256 % 16
  if !aux.testBit 12 then pkcs1Encode h (k / 8) dig
  else if k / 8 < 2 * hashLen h + 2 then Config.pssUnfit dig rand
  else pssEncode h (k / 8) dig (rand.take (hashLen h))

/-- Whether an encoding fits a digest (R302). -/
def rsaMatches (aux k : Nat) (dig em : Bytes) : Bool :=
  let h := aux / 256 % 16
  if aux.testBit 12 then pssMatches h (k / 8) dig em else em == pkcs1Encode h (k / 8) dig

/-- OAEP: AUX, modulus bits, label, message, and a random block whose first bytes are the seed (R302). -/
def oaepEncode (aux k : Nat) (label msg rand : Bytes) : Bytes :=
  let h := aux / 256 % 16
  let hl := hashLen h
  let n := k / 8 - hl - 1
  let db := rsaHash h label ++ List.replicate (n - hl - 1 - msg.length) 0#8 ++ 0x01#8 :: msg
  let mdb := addBytes db (mgf1 h (rand.take hl) n)
  0x00#8 :: (addBytes (rand.take hl) (mgf1 h mdb hl) ++ mdb)

/-- Its inverse, none where it fails (R309). -/
def oaepDecode (aux k : Nat) (label em : Bytes) : Option Bytes :=
  let h := aux / 256 % 16
  let hl := hashLen h
  let mdb := em.drop (hl + 1)
  let seed := addBytes ((em.drop 1).take hl) (mgf1 h mdb hl)
  let db := addBytes mdb (mgf1 h seed (k / 8 - hl - 1))
  match (db.drop hl).dropWhile (· == 0#8) with
  | b :: m => if leAt em 0 1 = 0 ∧ db.take hl = rsaHash h label ∧ b = 0x01#8 then some m else none
  | [] => none

/-! ## Deterministic nonces (RFC 6979) -/

/-- The leftmost bits of a string, as many as `n` has (R303). -/
def leftBits (b : Bytes) (n : Nat) : Nat :=
  let bits := if n = 0 then 0 else Nat.log2 n + 1
  beNat b / 2 ^ (8 * b.length - bits)

/-- The block size of the hash of a code of R302. -/
def hashBlock (h : Nat) : Nat := [0, 64, 128, 128, 136, 104, 72].getD h 0

/-- V, and the bytes of as many HMACs in succession as `n` asks. -/
def macChain (mac : Bytes → Bytes) : Nat → Bytes → Bytes × Bytes
  | 0, v => (v, [])
  | n + 1, v => let w := mac v; let r := macChain mac n w; (r.1, w ++ r.2)

/-- Candidates under K and V until one lies in [1, n - 1]; `fuel` candidates at most. -/
def nonceLoop (h ord : Nat) : Nat → Bytes → Bytes → Nat
  | 0, _, _ => 1
  | fuel + 1, key, v =>
    let mac (k : Bytes) : Bytes → Bytes := hmac (rsaHash h) (hashBlock h) k
    let bytes := (Nat.log2 ord + 8) / 8
    let r := macChain (mac key) ((bytes + hashLen h - 1) / hashLen h) v
    let c := leftBits r.2 ord
    if 1 ≤ c ∧ c < ord then c
    else
      let k2 := mac key (r.1 ++ [0x00#8])
      nonceLoop h ord fuel k2 (mac k2 r.1)

/-- The nonce for an order, a private key and a digest under a hash (R303). -/
@[irreducible] def detNonce (h ord d : Nat) (dig : Bytes) : Nat :=
  let mac (k : Bytes) : Bytes → Bytes := hmac (rsaHash h) (hashBlock h) k
  let bytes := (Nat.log2 ord + 8) / 8
  let x := natBe bytes d ++ natBe bytes (leftBits dig ord % ord)
  let v := List.replicate (hashLen h) 0x01#8
  let k1 := mac (List.replicate (hashLen h) 0x00#8) (v ++ 0x00#8 :: x)
  let v1 := mac k1 v
  let k2 := mac k1 (v1 ++ 0x01#8 :: x)
  nonceLoop h ord 1000 k2 (mac k2 v1)

/-! ## X25519 and X448 -/

/-- p, the ladder's constant and the number of scalar bits of X25519 (0) and X448 (1). -/
def xField (z : Nat) : Nat × Nat × Nat :=
  if z = 0 then (2 ^ 255 - 19, 121665, 255) else (2 ^ 448 - 2 ^ 224 - 1, 39081, 448)

/-- The scalar of a private key. -/
def xScalar (z : Nat) (priv : Bytes) : Nat :=
  if z = 0 then leNat (priv.take 32) / 8 * 8 % 2 ^ 254 + 2 ^ 254 else leNat (priv.take 56) / 4 * 4 % 2 ^ 447 + 2 ^ 447

/-- One step of the Montgomery ladder: p, constant, u, the points, a scalar bit. -/
def xStep (p a u : Nat) (s : (Nat × Nat) × Nat × Nat) (bit : Bool) : (Nat × Nat) × Nat × Nat :=
  let q := if bit then (s.2, s.1) else s
  let (x2, z2) := q.1
  let (x3, z3) := q.2
  let aa := (x2 + z2) ^ 2 % p
  let bb := subMod p x2 z2 ^ 2 % p
  let e := subMod p aa bb
  let da := subMod p x3 z3 * (x2 + z2)
  let cb := (x3 + z3) * subMod p x2 z2
  let r : (Nat × Nat) × Nat × Nat := ((aa * bb % p, e * (aa + a * e) % p), (da + cb) ^ 2 % p, u * (subMod p da cb ^ 2) % p)
  if bit then (r.2, r.1) else r

/-- The exchange of a private key with a peer's u coordinate (R277). -/
@[irreducible] def xShared (z : Nat) (priv peer : Bytes) : Bytes :=
  let (p, a, n) := xField z
  let u := leNat (peer.take ((n + 7) / 8)) % 2 ^ n % p
  let k := xScalar z priv
  let r := ((List.range n).reverse.map fun i => k.testBit i).foldl (xStep p a u) ((1, 0), u, 1)
  natLe ((n + 7) / 8) (r.1.1 * powMod p n r.1.2 (p - 2) 1 % p)

/-- The public share of a private key. -/
def xShare (z : Nat) (priv : Bytes) : Bytes := xShared z priv [if z = 0 then 9#8 else 5#8]

end Sys2Proof.Machine
end

