-- ==== Sys2Proof/Machine/MauMacro.lean ====
section
/-!
DEFINITION. What the macro operations of a MAU find and make (R301 to R311).
-/
namespace Sys2Proof.Machine

/-! ## Operands of a macro operation -/

/-- The key that the key lane delivered under a key number (R297). -/
def MauHalf.key (h : MauHalf) (n : Nat) : Bytes :=
  match h.keys.find? fun k => k.num == n with
  | some k => (List.range k.share0.length).map fun j => k.share0.getD j 0#8 ^^^ k.share1.getD j 0#8
  | none => []

/-- An outcome at T_full, at V, one with output, and one whose invariant check failed (R307 to R310). -/
def MauRes.full (st : Nat) : MauRes := { status := st, early := false, out := [], check := false }
def MauRes.atV (st : Nat) : MauRes := { status := st, early := true, out := [], check := false }
def MauRes.ok (out : Bytes) : MauRes := { status := 0, early := false, out := out, check := false }
def MauRes.broken : MauRes := { status := 0x09, early := false, out := [], check := true }

/-- What a macro operation makes: its outcome, and an output key, which goes into the key store as two shares (R290). -/
structure MacroOut where
  res : MauRes
  key : Option Bytes

/-- Outcomes of a macro operation without an output key, and with one. -/
def MacroOut.full (st : Nat) : MacroOut := { res := .full st, key := none }
def MacroOut.atV (st : Nat) : MacroOut := { res := .atV st, key := none }
def MacroOut.ok (out : Bytes) (key : Option Bytes) : MacroOut := { res := .ok out, key := key }

/-- An outcome released only where its invariant holds (R310). -/
def MacroOut.checked (inv : Bool) (o : MacroOut) : MacroOut := if inv then o else { res := .broken, key := none }

/-! ## RSA -/

/-- The fields of a private record p, q, dp, dq, qInv, n, e: the first five by number, then n and e (R305, log entry 17). -/
def recHalf (r : Bytes) (k j : Nat) : Nat := beNat ((r.drop (j * (k / 16))).take (k / 16))
def recN (r : Bytes) (k : Nat) : Nat := beNat ((r.drop (5 * (k / 16))).take (k / 8))
def recE (r : Bytes) (k : Nat) : Nat := beNat ((r.drop (7 * k / 16)).take 4)

/-- A private record whose p × q is not n (R309). -/
def badRecord (r : Bytes) (k : Nat) : Bool := recHalf r k 0 * recHalf r k 1 != recN r k

/-- `x` to the private exponent of a record, modulo n, by the Chinese remainder theorem (R305, R306). -/
def rsaPrivate (r : Bytes) (k x : Nat) : Nat :=
  let p := recHalf r k 0
  let q := recHalf r k 1
  let a := powMod p (k / 2) (x % p) (recHalf r k 2) 1 % p
  let b := powMod q (k / 2) (x % q) (recHalf r k 3) 1 % q
  b + q * (recHalf r k 4 * subMod p a b % p)

/-- `x` to a public exponent of at most 32 bits, modulo n. -/
def rsaPublicPow (n e x : Nat) : Nat := powMod n 32 (x % n) e 1 % n

/-- The record of two primes and a public exponent (R305, log entry 17). -/
def rsaRecord (k p q e : Nat) : Bytes :=
  let h (x : Nat) : Bytes := natBe (k / 16) x
  h p ++ h q ++ h (modInv e (p - 1)) ++ h (modInv e (q - 1)) ++ h (modInv q p) ++ natBe (k / 8) (p * q) ++ natBe 4 e

/-- The invariants of a new key: p × q = n, e × dp ≡ 1 mod (p − 1), e × dq ≡ 1 mod (q − 1), and a test signature verifies
(R310). -/
def rsaKeyOk (r : Bytes) (k : Nat) : Bool :=
  let p := recHalf r k 0
  let q := recHalf r k 1
  let e := recE r k
  let x := Config.rsaProbe k % recN r k
  !badRecord r k && e * recHalf r k 2 % (p - 1) == 1 && e * recHalf r k 3 % (q - 1) == 1
    && rsaPublicPow (recN r k) e (rsaPrivate r k x) == x

/-- A public key given in the input has a defect (R308). -/
def badPublic (n e k : Nat) : Bool := n % 2 == 0 || !(n.testBit (k - 1)) || decide (2 ^ k ≤ n) || e % 2 == 0 || decide (e < 3)

/-- n, e and the rest of the input of a public operation. -/
def rsaPublic (c : Call) (h : MauHalf) (k : Nat) : Nat × Nat × Bytes :=
  let b := if c.keyHandle 0 = 0 then c.input else h.key 0
  (beNat (b.take (k / 8)), beNat ((b.drop (k / 8)).take 4), if c.keyHandle 0 = 0 then c.input.drop (k / 8 + 4) else c.input)

/-- RSA_KEYGEN: the record of the primes found, and n (R305, R310). -/
def rsaKeygenRes (c : Call) (rand : Bytes) : MacroOut :=
  let k := leAt c.param 0 2
  let e := leAt c.param 2 4
  let pq := Config.rsaPrimes k e rand
  let r := rsaRecord k pq.1 pq.2 e
  .checked (rsaKeyOk r k) (.ok (natBe (k / 8) (recN r k)) (some r))

/-- RSA_SIGN: σ to the power e must give the encoded input again (R310). -/
def rsaSignRes (c : Call) (h : MauHalf) (k : Nat) (rand : Bytes) : MacroOut :=
  let r := h.key 0
  let em := beNat (rsaEncode c.aux k c.input rand) % recN r k
  let sig := rsaPrivate r k em
  if badRecord r k then .full 0x06
  else .checked (rsaPublicPow (recN r k) (recE r k) sig == em) (.ok (natBe (k / 8) sig) none)

/-- RSA_VERIFY. -/
def rsaVerifyRes (c : Call) (h : MauHalf) (k : Nat) : MacroOut :=
  let p := rsaPublic c h k
  let d := hashLen c.hash
  let sig := beNat (p.2.2.drop d)
  if c.keyHandle 0 = 0 && badPublic p.1 p.2.1 k then .atV 0x06
  else if sig = 0 ∨ p.1 ≤ sig then .atV 0x0D
  else .full (if rsaMatches c.aux k (p.2.2.take d) (natBe (k / 8) (rsaPublicPow p.1 p.2.1 sig)) then 0 else 0x0D)

/-- RSA_DECRYPT: c must come again from the result (R310). -/
def rsaDecryptRes (c : Call) (h : MauHalf) (k : Nat) : MacroOut :=
  let r := h.key 0
  let x := beNat (c.input.take (k / 8))
  let m := rsaPrivate r k x
  if x = 0 ∨ recN r k ≤ x then .atV 0x06
  else if badRecord r k then .full 0x06
  else .checked (rsaPublicPow (recN r k) (recE r k) m == x)
    (match oaepDecode c.aux k (c.input.drop (k / 8)) (natBe (k / 8) m) with
    | some m => .ok (m.take (k / 8 - 2 * hashLen c.hash - 2)) none
    | none => .full 0x06)

/-- RSA_ENCRYPT. -/
def rsaEncryptRes (c : Call) (h : MauHalf) (k : Nat) (rand : Bytes) : MacroOut :=
  let p := rsaPublic c h k
  let lab := c.aux % 256
  let msg := p.2.2.drop lab
  if c.keyHandle 0 = 0 && badPublic p.1 p.2.1 k then .atV 0x06
  else if k / 8 < msg.length + 2 * hashLen c.hash + 2 then .atV 0x06
  else .ok (natBe (k / 8) (rsaPublicPow p.1 p.2.1 (beNat (oaepEncode c.aux k (p.2.2.take lab) msg rand)))) none

/-! ## Elliptic curves -/

/-- The parameters of a call's curve: p, a, b, Gx, Gy, n, h (R303, R304). -/
def curveOf (c : Call) (h : MauHalf) (f : Nat) : List Nat :=
  if c.pbyte 0 = 0x80 then
    let r := h.key 3
    ((List.range 6).map fun j => beNat ((r.drop (f * j)).take f)) ++ [beNat (r.drop (6 * f))]
  else namedCurve (c.pbyte 0)

/-- An uncompressed point (R301). -/
def pointOf (b : Bytes) (f : Nat) : Pt := (beNat ((b.drop 1).take f), beNat ((b.drop (1 + f)).take f))
def pointBytes (p : Pt) (f : Nat) : Bytes := 0x04#8 :: (natBe f p.1 ++ natBe f p.2)

/-- A public point fails R308. -/
def badQ (cv : List Nat) (b : Bytes) (f : Nat) : Bool :=
  let p := cv.getD 0 0
  let q := pointOf b f
  leAt b 0 1 != 4 || decide (p ≤ q.1) || decide (p ≤ q.2) || !onCurve p (cv.getD 1 0) (cv.getD 2 0) q

/-- `k` times a point of a curve, and of its generator; none for the point at infinity. -/
def scaled (cv : List Nat) (k : Nat) (q : Pt) : Option Pt := ecTimes (cv.getD 0 0) (cv.getD 1 0) 641 (some q) k none
def scaledG (cv : List Nat) (k : Nat) : Option Pt := scaled cv k (cv.getD 3 0, cv.getD 4 0)

/-- A result lies on its curve (R310). -/
def resultOn (cv : List Nat) (p : Pt) : Bool := onCurve (cv.getD 0 0) (cv.getD 1 0) (cv.getD 2 0) p

/-- d lies outside [1, n - 1] (R309). -/
def badScalar (cv : List Nat) (d : Nat) : Bool := d == 0 || decide (cv.getD 5 0 ≤ d)

/-- EC_KEYGEN (R310). -/
def ecKeygenRes (c : Call) (h : MauHalf) (f n : Nat) (rand : Bytes) : MacroOut :=
  let cv := curveOf c h f
  let d := 1 + Config.ecScalar (cv.getD 5 0) rand % (cv.getD 5 0 - 1)
  match scaledG cv d with
  | some q => .checked (resultOn cv q) (.ok (pointBytes q f) (some (natBe n d)))
  | none => .checked false (.full 0)

/-- ECDSA_SIGN: r is the x coordinate of kG, s = (z + rd) ÷ k; r = 0 or s = 0 is ABORTED (R303, R310, R311). -/
def ecdsaSignRes (c : Call) (h : MauHalf) (f n : Nat) (rand : Bytes) : MacroOut :=
  let cv := curveOf c h f
  let d := beNat (h.key 0)
  let ord := cv.getD 5 0
  let k := if c.det then detNonce c.hash ord d c.input else 1 + Config.ecdsaNonce ord rand % (ord - 1)
  if badScalar cv d then .full 0x06
  else match scaledG cv k with
    | none => .checked false (.full 0)
    | some q =>
      let r := q.1 % ord
      let v := modInv k ord * (leftBits c.input ord + r * d) % ord
      .checked (resultOn cv q) (if r = 0 ∨ v = 0 then .full 0x08 else .ok (natBe n r ++ natBe n v) none)

/-- ECDSA_VERIFY: r against the x coordinate of (z/s) G + (r/s) Q. -/
def ecdsaVerifyRes (c : Call) (h : MauHalf) (f n : Nat) : MacroOut :=
  let cv := curveOf c h f
  let ord := cv.getD 5 0
  let named := c.keyHandle 0 != 0
  let qb := if named then h.key 0 else c.input.take (1 + 2 * f)
  let rest := if named then c.input else c.input.drop (1 + 2 * f)
  let dig := rest.take (rest.length - 2 * n)
  let r := beNat ((rest.drop dig.length).take n)
  let v := beNat (rest.drop (dig.length + n))
  if badQ cv qb f then .atV 0x06
  else if r = 0 ∨ ord ≤ r ∨ v = 0 ∨ ord ≤ v then .atV 0x0D
  else
    let w := modInv v ord
    let x := ecPlus (cv.getD 0 0) (cv.getD 1 0) (scaledG cv (leftBits dig ord * w % ord))
      (scaled cv (r * w % ord) (pointOf qb f))
    .full (match x with | some q => if q.1 % ord = r then 0 else 0x0D | none => 0x0D)

/-- ECDH: the shared X coordinate (R309, R310). -/
def ecdhRes (c : Call) (h : MauHalf) (f : Nat) : MacroOut :=
  let cv := curveOf c h f
  let d := beNat (h.key 0)
  if badQ cv c.input f then .atV 0x06
  else if badScalar cv d then .full 0x06
  else match scaled cv d (pointOf c.input f) with
    | none => .full 0x06
    | some x => .checked (resultOn cv x) (.ok [] (some (natBe f x.1)))

/-- The checks of EC_CURVE_LOAD (R304). -/
def curveOk (b : Bytes) : Bool :=
  let f := (b.length - 1) / 6
  let x (j : Nat) : Nat := beNat ((b.drop (f * j)).take f)
  let p := x 0
  let g : Pt := (x 3, x 4)
  let t := (x 6 : Nat) * x 5
  decide (2 ^ 159 ≤ p) && byteLen p == f && decide (f ≤ 80) && Config.probablePrime p && Config.probablePrime (x 5)
    && (4 * x 1 ^ 3 + 27 * x 2 ^ 2) % p != 0 && onCurve p (x 1) (x 2) g && (ecTimes p (x 1) 641 (some g) (x 5) none).isNone
    && decide (1 ≤ x 6) && decide (x 6 ≤ 8)
    && decide (((t : Int) - (p + 1)) * ((t : Int) - (p + 1)) ≤ 4 * p)

/-- EC_CURVE_LOAD. -/
def curveLoadRes (c : Call) : MacroOut := if curveOk c.input then .ok [] (some c.input) else .full 0x06

/-- The random blocks of an operation (R301). -/
def mauBlocks (op : Nat) : Nat := if op = 0xB0 then 2 else if [0xB2, 0xB7, 0xB9, 0xBA].contains op then 0 else 1

end Sys2Proof.Machine
end

