-- ==== Sys2Proof/Machine/KeyRows.lean ====
section
/-!
DEFINITION. The key-table operations 0xA8 to 0xAF (R434 to R446), the sweep and the other events of the key subsystem
(R405, R419, R420, R424, R427, R29).
-/
namespace Sys2Proof.Machine

/-! ## The turn of an operation (R443) -/

/-- A named entry other than one that is to be refilled is LOST: the call completes FAULT_CONTAINED (R432). -/
def State.lostKey (s : State) (c : Call) : Option Nat :=
  (List.range 4).find? fun n =>
    c.keyHandle n != 0 && !(c.opcode == 0xAF && n == 0) && (s.slot (hIndex (c.keyHandle n))).st == .lost

/-- A named entry, or the chain of an output entry, is no longer current (R443). -/
def State.staleAny (s : State) (c : Call) : Bool :=
  (List.range 4).any (fun n => s.keyStale c n) || c.okeys.any fun o => !s.chainOk o.slot

/-- Runs an operation at its turn: entries and chains are judged again first (R443, R432). -/
def State.keyTurn (s : State) (k op : Nat) (act : Call → State → State) : State :=
  match s.call k with
  | none => s
  | some c =>
    if c.st != .keyOp || c.opcode != op then s
    else if s.staleAny c then s.endCall k 0x04 false
    else match s.lostKey c with
      | some n =>
        let i := hIndex (c.keyHandle n)
        let s := if (s.slot i).loc = 0 then s.raiseKt 0 c.inst (c.keyHandle n) else s
        s.endCall k 0x09 false
      | none => act c s

/-- The operation completes OK with output keys. -/
def State.keyOk (s : State) (k : Nat) (c : Call) (made : List (Nat × Nat)) (outLen : Nat) : State :=
  (s.setCall k (some { c with made := made, outLen := outLen, okeys := [] })).endCall k 0 false

/-- An operation that the DRBG cannot serve waits, or completes ENTROPY_UNAVAILABLE while ENT is HALTED (R463, R472). -/
def State.keyWait (s : State) (k : Nat) : State :=
  if s.ent.mode == .halted then s.deniedDraw.endCall k 0x07 false else s

/-- A seal that finds the IV reserve empty fails, and the operation completes ENTROPY_UNAVAILABLE (R468). -/
def State.sealFail (s : State) (k : Nat) : State := s.endCall k 0x07 false

/-- The operation writes its output, and completes OK where the windows take it (R31). -/
def State.keyPush (s : State) (k : Nat) (c : Call) (b : Bytes) : State :=
  if s.windowOk c.inst c.outAddr b.length true then (s.hostWrite c.outAddr b).keyOk k c [] b.length
  else (s.windowMiss c.inst c.queue).endCall k 0x10 false

/-! ## KEY_GENERATE, KEY_DESTROY, KEY_INFO, KEY_RESTRICT -/

/-- The reserved entry of an operation takes its key. -/
def State.keyFill (s : State) (k : Nat) (c : Call) (key : Bytes) : State :=
  match c.okeys with
  | [] => s.endCall k 0x0B false
  | o :: _ => match s.fillSlot o.slot key with
    | none => s.sealFail k
    | some s => s.keyOk k c [(o.num, s.handleOf o.slot)] 0

/-- The bytes of a generated key, from the smallest request that holds them (R461, R467; log entry 116). -/
def State.drawKey (s : State) (n : Nat) : Option (Bytes × State) :=
  if n ≤ 32 then s.draw32.map fun r => (r.1.take n, r.2) else s.draw.map fun r => (natLe n r.1.toNat, r.2)

/-- KEY_GENERATE: a new key from the DRBG (R444). -/
def execKeyGenerate (call : BitVec 32) (s : State) : Host.Outcome State Fault Refusal :=
  let k := call.toNat
  .next (s.keyTurn k 0xA8 fun c s => match s.drawKey (c.pbyte 1) with
    | none => s.keyWait k
    | some (b, t) => t.keyFill k c b)

/-- Every live entry that carries a reservation counter (R446). -/
def State.carriers (s : State) (n : Nat) : List Nat :=
  (s.keys.slots.filter fun e => decide (256 ≤ e.1) && e.2.live && e.2.rctr == n).map (·.1)

/-- KEY_DESTROY: the entry is freed; RETIRE_TREE frees every entry of its counter and the counter; EPOCH advances the
owner's vault epoch (R437, R443, R446). -/
def execKeyDestroy (call : BitVec 32) (s : State) : Host.Outcome State Fault Refusal :=
  let k := call.toNat
  .next (match s.call k with
  | none => s
  | some c =>
    if c.st != .keyOp || c.opcode != 0xA9 then s
    else
      let h := c.keyHandle 0
      let i := hIndex h
      let named := h != 0 && s.handleOk c.inst h
      let e := s.slot i
      let done (s : State) : State := (if c.aux.testBit 1 then s.nextEpoch c.inst else s).keyOk k c [] 0
      if named && c.aux.testBit 0 then
        if e.rctr = 0xFFFF then s.endCall k 0x05 false
        else if s.ctrAlive i then done ((s.destroyAll (s.carriers e.rctr)).setCtr e.rctr ResCounter.reset)
        else done (s.destroyAll [i])
      else if named then done (s.destroyAll [i])
      else done s)

/-- The code of a state (R410). -/
def SlotSt.code : SlotSt → Nat
  | .free => 0 | .reserved => 1 | .valid => 2 | .lost => 3 | .retired => 4

/-- Indices a tree entry may still be assigned (R444). -/
def State.indicesLeft (s : State) (i : Nat) : Nat :=
  let e := s.slot i
  if e.type != 0x18 || !s.ctrAlive i then 0
  else min e.bleft (2 ^ e.height - e.next) + (2 ^ e.height - (s.ctr e.rctr).limit)

/-- The 32 bytes of KEY_INFO (R444). -/
def State.keyInfo (s : State) (i : Nat) : Bytes :=
  let e := s.slot i
  natLe 1 e.type ++ natLe 1 e.set ++ natLe 1 (e.st.code + 8 * e.loc) ++ natLe 1 e.depth ++ natLe 4 e.klen
    ++ natLe 4 e.attr.toNat ++ natLe 4 e.parent ++ natLe 4 (if e.type = 0x18 then e.next else 0)
    ++ natLe 4 (s.indicesLeft i) ++ natLe 8 0

/-- KEY_INFO (R444). -/
def execKeyInfo (call : BitVec 32) (s : State) : Host.Outcome State Fault Refusal :=
  .next (s.keyTurn call.toNat 0xAA fun c s => s.keyPush call.toNat c (s.keyInfo (hIndex (c.keyHandle 0))))

/-- KEY_RESTRICT: a word that sets a bit ATTR lacks, or that R414 refuses, is denied (R28, R444). -/
def execKeyRestrict (call : BitVec 32) (s : State) : Host.Outcome State Fault Refusal :=
  let k := call.toNat
  .next (s.keyTurn k 0xAB fun c s =>
    let i := hIndex (c.keyHandle 0)
    let e := s.slot i
    let a : W32 := BitVec.ofNat 32 (leAt c.param 0 4)
    if a &&& ~~~e.attr != 0#32 || userDenied a then (s.raiseKt 4 c.inst (c.keyHandle 0)).endCall k 0x05 false
    else if !s.attrOk a e.type then s.endCall k 0x05 false
    else (s.setSlot i { e with attr := a }).keyOk k c [] 0)

/-! ## KEY_EXPORT and KEY_PUBLIC_LOAD -/

/-- The plaintext that the Export Gate wraps (R442). -/
def exportPlain (e : KeySlot) (key : Bytes) : Bytes :=
  natLe 1 e.type ++ natLe 1 e.set ++ natLe 2 e.klen ++ natLe 4 e.attr.toNat ++ key

/-- The Sealing Unit reads the key of an entry that a key operation names. -/
def State.readFor (s : State) (c : Call) (n : Nat) (records : List HostRead) : KeyRead :=
  let i := hIndex (c.keyHandle n)
  let r := s.hostRecord c i (records.getD n .busError)
  r.2.readKey i r.1

/-- KEY_EXPORT: KEY0 wrapped under KEY1 (R26, R442). -/
def execKeyExport (call : BitVec 32) (records : List HostRead) (s : State) : Host.Outcome State Fault Refusal :=
  let k := call.toNat
  .next (s.keyTurn k 0xAC fun c s =>
    let e := s.slot (hIndex (c.keyHandle 0))
    let w := s.slot (hIndex (c.keyHandle 1))
    if !bit32 e.attr 31 || w.type != 0x02 || !bit32 w.attr uWrap then
      (s.raiseKt 3 c.inst (c.keyHandle 0)).endCall k 0x05 false
    else match s.readFor c 0 records with
      | .fail st s => s.endCall k st false
      | .ok key s => match s.readFor c 1 records with
        | .fail st s => s.endCall k st false
        | .ok wk s =>
          let n := 8 * ((8 + e.klen + 7) / 8) + 8
          let t := s.keyPush k c (padTo n (aesWrap wk (exportPlain e key)))
          if s.windowOk c.inst c.outAddr n true then { t with keys := { t.keys with cntExport := t.keys.cntExport + 1#32 } } else t)

/-- The length of a public key of a type and set; none where its own codes fix it (R444). -/
def publicLen (t set : Nat) : Option Nat :=
  match t with
  | 0x11 => some ([800, 1184, 1568].getD ((set - 1) / 6) 0)
  | 0x13 => some ([1312, 1952, 2592].getD ((set - 0x14) / 5) 0)
  | 0x15 => some ([897, 1793].getD ((set - 0x24) / 3) 0)
  | 0x17 => some (2 * slhN ((set - 0x2C) / 3))
  | 0x1B => some ([2249, 4522, 7245].getD ((set - 0x84) / 3) 0)
  | 0x24 => some (match set with | 0x7A => 56 | 0x7F => 57 | _ => 32)
  | 0x33 => if set = 0x80 then none else some (1 + 2 * [32, 48, 66].getD set 0)
  | _ => none

/-- A stateful public key's own codes name sets of R270 and fix its length (R271, R444). -/
def statefulPkOk (set : Nat) (b : Bytes) : Bool :=
  let w (o : Nat) : Nat := beNat ((b.drop o).take 4)
  if set = 1 then
    match lmsType (w 4), otsType (w 8) with
    | some (_, m), some (n, _) => m == n && b.length == 28 + m && decide (1 ≤ w 0) && decide (w 0 ≤ 4)
    | _, _ => false
  else match (if set = 2 then xmssType (w 0) else xmssMtType (w 0)) with
    | some (_, n) => b.length == 4 + 2 * n
    | none => false

/-- An RSA public key n ‖ e passes R444. -/
def rsaPkOk (b : Bytes) : Bool :=
  let kb := b.length - 4
  let n := beNat (b.take kb)
  let e := beNat (b.drop kb)
  decide (4 < b.length) && goodK (8 * kb) && n % 2 == 1 && n.testBit (8 * kb - 1) && e % 2 == 1 && decide (3 ≤ e)

/-- The modulus check of R257: every 12-bit coefficient is below 3,329. -/
def modulusOk (b : Bytes) : Bool :=
  (List.range ((b.length - 32) / 3)).all fun j =>
    let x := leAt b (3 * j) 3
    decide (x % 4096 < 3329) && decide (x / 4096 < 3329)

/-- A public point of a programmable curve: the form 0x04 ‖ X ‖ Y with a field of 20 to 80 bytes (R304). KEY_PUBLIC_LOAD names no
curve record, so the checks of R308 come at its use (log entry 65). -/
def freePointOk (b : Bytes) : Bool :=
  let f := (b.length - 1) / 2
  leAt b 0 1 == 4 && b.length == 1 + 2 * f && decide (20 ≤ f) && decide (f ≤ 80)

/-- The public-key check of KEY_PUBLIC_LOAD (R444): a NIST point passes R308; of types without a check of their own the
length decides. -/
def publicKeyOk (t set : Nat) (b : Bytes) : Bool :=
  (match publicLen t set with | some n => b.length == n | none => true)
    && (if t = 0x31 then rsaPkOk b else if t = 0x19 then statefulPkOk set b else if t = 0x11 then modulusOk b
        else if t = 0x33 then (if set = 0x80 then freePointOk b else !badQ (namedCurve set) b ([32, 48, 66].getD set 0))
        else true)

/-- KEY_PUBLIC_LOAD (R444). -/
def execKeyPublicLoad (call : BitVec 32) (input : HostRead) (s : State) : Host.Outcome State Fault Refusal :=
  let k := call.toNat
  .next (s.keyTurn k 0xAD fun c s => match s.readInput c input with
    | (none, s) => s.endCall k 0x10 false
    | (some b, s) =>
      if !publicKeyOk (c.pbyte 0) (c.pbyte 1) b then s.endCall k 0x06 false else s.keyFill k c b)

/-! ## KEY_SAVE and KEY_LOAD -/

/-- Seals a key as a record for host memory; none when the IV reserve is empty or no root is in force (R429, R430,
R434). -/
def State.sealOut (s : State) (i : Nat) (saved : Bool) (key : Bytes) : Option (Bytes × Nat × State) :=
  match s.takeIv, s.vaultRoot with
  | some (iv, s), some root =>
    let k := s.slot i
    let seq := s.keys.seqCtr
    let s := { s with keys := { s.keys with seqCtr := (seq + 1) % 2 ^ 32 } }
    some (sealRecord root (recordHeader k (s.handleOf i) saved seq s.otp.era (s.epoch k.owner) s.keys.bootId iv) iv key, seq, s)
  | _, _ => none

/-- KEY_SAVE: a saved record, or with EVICT the live record of a DRAM key, which then lies in host memory (R434,
R435). -/
def execKeySave (call : BitVec 32) (records : List HostRead) (s : State) : Host.Outcome State Fault Refusal :=
  let k := call.toNat
  .next (s.keyTurn k 0xAE fun c s0 =>
    let i := hIndex (c.keyHandle 0)
    let e := s0.slot i
    let evict := c.aux.testBit 0
    if (if evict then e.loc != 1 else !bit32 e.attr 30) then s0.endCall k 0x05 false
    else match s0.readFor c 0 records with
      | .fail st s => s.endCall k st false
      | .ok key s => match s.sealOut i (!evict) key with
        | none => s.sealFail k
        | some (r, seq, s) =>
          if !s.windowOk c.inst c.outAddr r.length true then (s.windowMiss c.inst c.queue).endCall k 0x10 false
          else
            let s := if evict then s.setSlot i { s.slot i with loc := 2, addr := c.outAddr, rlen := r.length, seq := seq }
              else s
            s.keyPush k c r)

/-- A saved record as KEY_LOAD reads it. -/
structure LoadRec where
  type : Nat
  set : Nat
  handle : Nat
  rctr : Nat
  attr : W32
  klen : Nat
  tag : Nat
  key : Bytes

/-- Checks 1 to 3 of R436 and the last ERA of R438; none where one fails. -/
def State.openSaved (s : State) (inst : Nat) (b : Bytes) : Option LoadRec :=
  let klen := leAt b 32 4
  let attr : W32 := BitVec.ofNat 32 (leAt b 28 4)
  if decide (b.length < 80) || leAt b 0 4 != 0x31564B41 || leAt b 4 2 != 1 || leAt b 7 1 != 1 || b.length != 80 + klen
      || leAt b 24 1 != inst || leAt b 16 4 != s.otp.era || s.bbram.eraSpent || leAt b 20 4 != s.epoch inst
      || !s.attrOk attr (leAt b 6 1) then none
  else (s.vaultRoot.bind fun root => openRecord root b).map fun key =>
    { type := leAt b 6 1, set := leAt b 25 1, handle := leAt b 8 4, rctr := leAt b 26 2, attr := attr, klen := klen
      tag := leAt b 44 8, key := key }

/-- The counter of a saved tree still holds the record's tag (R436, check 4). -/
def State.savedCtrOk (s : State) (r : LoadRec) : Bool :=
  r.rctr == 0xFFFF || (decide (r.rctr < 1024) && (s.ctr r.rctr).bound && (s.ctr r.rctr).tag == r.tag)

/-- Room for one entry of a length under R428, with the events of its lack. -/
def State.entryRoom (s : State) (inst klen : Nat) : Option Nat × State :=
  match s.freeSlot with
  | none => (none, s.raiseKt 7 inst 0)
  | some i =>
    if decide (maxKey < klen) || (decide (32 < klen) && (!s.vaultEn || (s.vaultPlace (granules klen)).isNone)) then
      (none, s.raiseKt 8 inst 0)
    else if s.quota inst < s.usedCount inst + 1 then (none, s)
    else (some i, s)

/-- Makes an entry in one step in a FREE slot with room (R416); none when its record cannot be sealed. -/
def State.makeEntry (s : State) (i : Nat) (k : KeySlot) (key : Bytes) : Option State :=
  let addr := s.vaultBase + 1024 * ((s.vaultPlace (granules k.klen)).getD 0)
  let k := { k with st := .reserved, gen := (s.slot i).gen
                    loc := if k.klen ≤ 32 then 0 else 1, addr := if k.klen ≤ 32 then 0 else addr }
  (s.setSlot i k).fillSlot i key


/-- KEY_LOAD: a saved record makes a new entry, or refills an entry that is LOST at the operation's turn (R436, R443). -/
def execKeyLoad (call : BitVec 32) (input : HostRead) (s : State) : Host.Outcome State Fault Refusal :=
  let k := call.toNat
  .next (s.keyTurn k 0xAF fun c s =>
    if c.keyHandle 0 != 0 && (s.slot (hIndex (c.keyHandle 0))).st != .lost then s.endCall k 0x05 false
    else match s.readInput c input with
    | (none, s) => s.endCall k 0x10 false
    | (some b, s) => match s.openSaved c.inst b with
      | none => s.endCall k 0x06 false
      | some r =>
        if !s.savedCtrOk r then s.endCall k 0x0E false
        else if c.keyHandle 0 = 0 then
          match s.entryRoom c.inst r.klen with
          | (none, s) => s.endCall k 0x0B false
          | (some i, s) =>
            let p := s.parentHandle c.inst (c.keyHandle 1)
            let e : KeySlot := { dfltSlot i with
              type := r.type, owner := c.inst, set := r.set, depth := s.depthUnder p, parent := p, attr := r.attr
              klen := r.klen, rctr := r.rctr, treeTag := if r.rctr = 0xFFFF then 0 else r.tag }
            match s.makeEntry i e r.key with
            | none => s.sealFail k
            | some s => s.keyOk k c [(0, s.handleOf i)] 0
        else if r.handle != c.keyHandle 0 then s.endCall k 0x06 false
        else
          let i := hIndex (c.keyHandle 0)
          let e := s.slot i
          match (s.setSlot i { e with bleft := 0, next := 0, bad := false }).fillSlot i (padTo e.klen r.key) with
          | none => s.sealFail k
          | some s => s.keyOk k c [(0, s.handleOf i)] 0)

/-! ## The sweep and the roots -/

/-- Global beats of 10 s and of 60 s. -/
abbrev sweepBeats : Nat := 390625000
abbrev remaskBeats : Nat := 2343750000

/-- Every 10 s a pass starts under a new seed, or is skipped (R419, R420). -/
def execSweepPassStart (s : State) : Host.Outcome State Fault Refusal :=
  .next (if !s.boot.ready || s.keys.sweepAt.isSome then s
  else
    let s := s.goTo s.keys.sweepDue
    let s := { s with keys := { s.keys with sweepDue := s.keys.sweepDue + sweepBeats } }
    match s.draw256 with
    | none => ({ s with keys := { s.keys with skips := (s.keys.skips + 1) % 65536 } }).raiseKt 6 0 0
    | some (x, s) => { s with keys := { s.keys with newSeed := x, sweepAt := some 0 } })

/-- The sweep reaches one slot: an inline BODY whose parity holds is re-masked, its access window ends, and an orphan
is reclaimed (R29, R419, R424, R432). -/
def State.sweepSlot (s : State) (i : Nat) : State :=
  let e := s.slot i
  let mNew := natLe 32 (Config.slotMask s.keys.newSeed i).toNat
  let mOld := natLe 32 (Config.slotMask s.keys.sweepSeed i).toNat
  let inline := decide (256 ≤ i) && e.live && e.loc == 0
  let s := if inline then s.setSlot i { e with body := xor32 e.body (xor32 mOld mNew), token := none } else s
  let s := { s with keys := { s.keys with sweepAt := some (i + 1) } }
  let s := if inline && e.bad && e.st == .valid then s.markLost i 0 else s
  if decide (256 ≤ i) && e.live && !s.chainOk i then
    let s := s.freeEntry i
    { s with keys := { s.keys with cntReclaim := s.keys.cntReclaim + 1#32 } }
  else s

/-- The sweep moves on to the next slot that holds anything; past the last the pass ends (R419, R424). -/
def execSweepStep (s : State) : Host.Outcome State Fault Refusal :=
  .next (match s.keys.sweepAt with
  | none => s
  | some p => match (s.keys.slots.filter fun e => decide (p ≤ e.1)).map (·.1) with
    | i :: _ => s.sweepSlot i
    | [] => { s with keys := { s.keys with
        sweepSeed := s.keys.newSeed, sweepAt := none, passes := (s.keys.passes + 1) % 65536 } })

/-- A root with fresh bits in both shares. -/
def Root.remask (r : Root) (x : BitVec 256) : Root := { share0 := r.share0 ^^^ x, share1 := r.share1 ^^^ x }

/-- Every 60 s the BBRAM roots are re-masked, or the re-masking is skipped (R405). -/
def execBbramRemask (s : State) : Host.Outcome State Fault Refusal :=
  .next (if !s.boot.ready then s
  else
    let s := s.goTo s.keys.remaskDue
    let s := { s with keys := { s.keys with remaskDue := s.keys.remaskDue + remaskBeats } }
    match s.draw with
    | none => s.raiseKt 6 0 0
    | some (x, s) =>
      let own := s.bbram.krOwn.map fun r => r.remask (x.setWidth 256)
      let rma := s.bbram.krRma.map fun r => r.remask ((x >>> 256).setWidth 256)
      { s with bbram := { s.bbram with krOwn := own, krRma := rma } })

/-- The share a one-share read delivers: BODY, or the mask (R29, R417). -/
def State.shareOf (s : State) (i : Nat) (mask : Bool) : Bytes := if mask then s.bodyMask i else padTo 32 (s.slot i).body

/-- The Supervisor writes KT_SUP_SEL: one share of a VALID inline entry, the same share through an access window
(R29). -/
def execSupShareRead (share : Bool) (s : State) : Host.Outcome State Fault Refusal :=
  let h := (s.reg 0x504000).toNat
  let i := hIndex h
  let e := s.slot i
  let n := b2n share
  let s := s.setReg 0x504004 (at32 n 0)
  let deny (s : State) : State :=
    ({ s with keys := { s.keys with supData := List.replicate 32 0#8 } }).raiseKt 5 e.owner h
  .next (if decide (i < 256) || e.gen != hGen h || e.st != .valid || e.loc != 0 then deny s
  else match e.token with
    | some t => if t = n then { s with keys := { s.keys with supData := s.shareOf i share } } else deny s
    | none =>
      let s := s.setSlot i { e with token := some n }
      { s with keys := { s.keys with supData := s.shareOf i share } })

/-- A write of VAULT_EN: the vault is disabled only while no entry lies in it (R427). -/
def execVaultEnWrite (on : Bool) (s : State) : Host.Outcome State Fault Refusal :=
  .next (s.pfWrite fun s =>
    if on then s.setReg 0x500004 1#32
    else if s.vaultUsed.isEmpty || !s.vaultEn then s.setReg 0x500004 0#32
    else s.raiseKt 11 0 0)

end Sys2Proof.Machine
end

