-- ==== Sys2Proof/Machine/MauUnit.lean ====
section
/-!
DEFINITION. Calls on the modular arithmetic units: placement and staging, start, macro operations and raw commands, the
end of a call, faults and clears (R288 to R335), and the push of outputs (R298, R246).
-/
namespace Sys2Proof.Machine

/-! ## Halves -/

/-- The free half the next call takes: halves alternate (R288). -/
def Mau.freeHalf (m : Mau) : Option Nat :=
  if (m.half m.nextHalf).call.isNone then some m.nextHalf
  else if (m.half (1 - m.nextHalf)).call.isNone then some (1 - m.nextHalf) else none

/-- The staged half that starts next: the older placement. -/
def Mau.stagedHalf (m : Mau) : Option Nat :=
  let ok (h : Nat) : Bool := (m.half h).staged && (m.half h).call.isSome
  if ok m.nextHalf then some m.nextHalf else if ok (1 - m.nextHalf) then some (1 - m.nextHalf) else none

/-- A clear of the half still runs (R291, R327). -/
def MauHalf.busyClear (h : MauHalf) : Bool := h.clearing || h.aborting

/-- Key store and scratch of a half are cleared at the end of its call (R291). -/
def MauHalf.ended (h : MauHalf) : MauHalf := { h with keys := [], scratch := [], clearing := true, staged := false }

/-- After an abort or a fault operand memory is cleared too (R327). -/
def MauHalf.aborted (h : MauHalf) : MauHalf :=
  { h with mem := [], junk := none, keys := [], scratch := [], aborting := true, staged := false }

/-- The unit has no running call and no raw command in hand; its sequencer stands. -/
def Mau.stop (m : Mau) : Mau :=
  { m with run := none, res := none, rawPos := 0, rawData := 0, rawOut := [], rawOk := false, rawBad := false, mods := []
           curve := none, uon := false, stack := [], abortReq := false }

/-- The sequencer begins the routine of an opcode or of a raw command code, on an empty stack (R331, R332). -/
def Mau.enter (m : Mau) (code : Nat) : Mau := { m with uon := true, uaddr := Config.microEntry code, stack := [] }

/-- The routine of a raw command. -/
def rawRoutine (w : W64) : Nat := 0x100 + rCmd w

/-- The call of the running half. -/
def State.runCall (s : State) (u : Nat) : Option (Nat × Call × Nat) :=
  match (s.mau u).run with
  | none => none
  | some h => match ((s.mau u).half h).call with
    | none => none
    | some k => (s.call k).map fun c => (k, c, h)

/-- The MAU_ACCESS syndrome: cause 8 (R329, R337). -/
def State.mauAccess (s : State) (u : Nat) : State := s.raise (blkMau + u) 1 (at32 8 24 ||| at32 (s.mau u).inst 16) 0#32

/-! ## Placement (R296, R297) -/

/-- The units a call may be placed on, lowest first; a replay avoids the unit that failed (R330). -/
def State.mauEligible (s : State) (c : Call) (not : Option Nat) : List Nat :=
  (List.range 32).filter fun u =>
    (s.mau u).admits && (s.mau u).freeHalf.isSome && c.avoid != some u && not != some u

/-- The unit that takes a call next (R296). -/
def State.chooseMau (s : State) (c : Call) (not : Option Nat) : Option Half :=
  let l := s.mauEligible c not
  let same := l.find? fun u => match (s.mau u).freeHalf with
    | some h => ((s.mau u).half h).last == some c.inst
    | none => false
  (match same with | some u => some u | none => l.head?).bind fun u =>
    (s.mau u).freeHalf.map fun h => { unit := u, frame := h, start := 0, res := none }

/-- The halves of a call: one, or two on different units when paired (R300). -/
def State.chooseHalves (s : State) (c : Call) : Option (List Half) :=
  match s.chooseMau c none with
  | none => none
  | some a => if !c.paired then some [a] else (s.chooseMau c (some a.unit)).map fun b => [a, b]

/-- A call takes a half: the half is cleared first when another instance used it last (R288, R292). -/
def State.takeHalf (s : State) (k : Nat) (c : Call) (h : Half) : State :=
  let m := s.mau h.unit
  let x := m.half h.frame
  let x := if x.last = some c.inst then x else { x with mem := [], junk := none }
  let x := { x with call := some k, last := some c.inst, keys := [], scratch := [], staged := false }
  s.setMau h.unit { m.setHalf h.frame x with nextHalf := 1 - h.frame }

/-- One input key delivered into a half as two shares; one that is stale is delivered as zeros (R297, R418, R423). -/
def State.mauKey (s : State) (c : Call) (h : Half) (n : Nat) (rec : HostRead) : Option Nat × State :=
  let put (s : State) (a b : Bytes) : State :=
    let m := s.mau h.unit
    let x := m.half h.frame
    s.setMau h.unit (m.setHalf h.frame { x with keys := x.keys ++ [{ num := n, share0 := a, share1 := b }] })
  let hd := c.keyHandle n
  if hd = 0 then (none, s)
  else if s.keyStale c n then
    let z := List.replicate (s.slot (hIndex hd)).klen 0#8
    (none, put s z z)
  else
    let r := s.hostRecord c (hIndex hd) rec
    match r.2.readKey (hIndex hd) r.1 with
    | .fail st s => (some st, s)
    | .ok key s => let sh := s.keyShares (hIndex hd) key; (none, put s sh.1 sh.2)

/-- Every input key of a call into one half, up to the first failure. -/
def State.mauKeys (s : State) (c : Call) (h : Half) (recs : List HostRead) : List Nat → Option Nat × State
  | [] => (none, s)
  | n :: t => match s.mauKey c h n (recs.getD n .busError) with
    | (some st, s) => (some st, s)
    | (none, s) => s.mauKeys c h recs t

/-- The input keys into every half of a call. -/
def State.mauAllKeys (s : State) (c : Call) (recs : List HostRead) : List Half → Option Nat × State
  | [] => (none, s)
  | h :: t => match s.mauKeys c h recs [0, 1, 2, 3] with
    | (some st, s) => (some st, s)
    | (none, s) => s.mauAllKeys c recs t

/-- The input bytes into slot 0 upward, and the half is staged. -/
def State.mauStage (s : State) (h : Half) (b : Bytes) : State :=
  let m := s.mau h.unit
  s.setMau h.unit (m.setHalf h.frame { (m.half h.frame).wr 0 b with staged := true })

/-- A parity error of the staging memory: the call is placed again once, and a second error ends it (R582, R233). -/
def State.mauStageParity (s : State) (k : Nat) (c : Call) : State :=
  let s := s.raiseHiu 2 c.inst c.queue c.index.toNat
  if c.replays = 0 then
    let s := { s with sch := { s.sch with cntReplay := s.sch.cntReplay + 1#32 } }
    (s.freeHalves k c.place).setCall k (some { c with place := [], replays := 1 })
  else s.endCall k 0x09 false

/-- Staging of a placed call; none while its random blocks wait for the bank (R217, R297, R463). -/
def State.mauStaging (s : State) (k : Nat) (c : Call) (hs : List Half) (input : HostRead) (recs : List HostRead) : Option State :=
  if recParity input then some (s.mauStageParity k c)
  else match s.readInput c input with
  | (none, s) => some (s.endCall k 0x10 false)
  | (some b, s) => match s.mauAllKeys c recs hs with
    | (some st, s) => some (s.endCall k st false)
    | (none, s) => match s.drawBlocks (mauBlocks c.opcode * hs.length) with
      | none => if s.ent.mode == .halted then some (s.deniedDraw.endCall k 0x07 false) else none
      | some (rand, s) =>
        let s := hs.foldl (fun s h => s.mauStage h b) s
        let s := if c.opcode = 0xBA ∧ c.stagedG = 0 then s.charge c (mauBeats (listTime b c.outLenMax)) 1 else s
        some (s.setCall k (some { c with place := hs, input := b, rand := rand, st := .staged, stagedG := s.g }))

/-- The SCH places an admitted MAU call and stages it. It waits for a unit, for the clears of the half, and for random
blocks while the bank cannot serve (R291, R296, R297, R463). -/
def execMauPlace (call : BitVec 32) (input : HostRead) (records : List HostRead) (s : State) :
    Host.Outcome State Fault Refusal :=
  let k := call.toNat
  .next (match s.call k with
  | none => s
  | some c =>
    if c.st != .unplaced then s
    else match s.chooseHalves c with
      | none => s
      | some hs =>
        if hs.any fun h => ((s.mau h.unit).half h.frame).busyClear then s
        else
          let t := hs.foldl (fun s h => s.takeHalf k c h) s
          let c := { c with place := hs }
          ((t.setCall k (some c)).mauStaging k c hs input records).getD s)

/-! ## Ends -/

/-- Adds one to MAU_CNT_CALLS, and to MAU_CNT_REJECT for the two rejecting statuses (R337). -/
def Mau.counted (m : Mau) (status : Nat) : Mau :=
  { m with cntCalls := m.cntCalls + 1#32
           cntReject := if status = 0x06 ∨ status = 0x0D then m.cntReject + 1#32 else m.cntReject }

/-- A MAU call ends with a status: its completion becomes ready, where R372 leaves room (R226, R298). -/
def State.mauFinish (s : State) (k : Nat) (c : Call) (status : Nat) : State :=
  let s := if status = 0 then s else s.unreserveAll c.okeys
  let c := { c with outLen := if status = 0 then c.outLen else 0, made := if status = 0 then c.made else [], okeys := [] }
  (s.setCall k (some c)).endCall k status true

/-- Every half of a call is aborted and given back (R327). -/
def State.abortHalves (s : State) (k : Nat) : List Half → State
  | [] => s
  | h :: t =>
    let m := s.mau h.unit
    let x := m.half h.frame
    let s := if x.call = some k then
        let m := if m.run = some h.frame then (m.counted 0).stop else m
        s.setMau h.unit (m.setHalf h.frame { x.aborted with call := none })
      else s
    State.abortHalves s k t

/-- A MAU call ends with an abort of any kind: no output and no key leaves (R325 to R327). -/
def State.mauAbortCall (s : State) (k : Nat) (c : Call) (status : Nat) : State :=
  (s.abortHalves k c.place).mauFinish k { c with place := [] } status

/-- A MAU_FAULT of a cause at a microaddress in the running call of a unit: causes 1 to 4 run the call again once, unless its
instance is in a Function Level Reset (R329, R330, R386). -/
def State.mauFaultAt (s : State) (u cause ua : Nat) : State :=
  match s.runCall u with
  | none => s
  | some (k, c, _) =>
    let s := s.raise (blkMau + u) 0 (at32 cause 24 ||| at32 c.inst 16 ||| at32 (ua % 8192) 0) 0#32
    let m := s.mau u
    let s := s.setMau u { m with cntCheck := if cause = 5 then m.cntCheck + 1#32 else m.cntCheck, down := m.down || cause == 3 }
    if cause ≤ 4 ∧ c.mauReplays = 0 ∧ (s.inst c.inst).st ≠ .inFlr then
      (s.abortHalves k c.place).setCall k (some { c with
        place := [], rand := [], st := .unplaced, mauReplays := 1, avoid := some u })
    else s.mauAbortCall k c 0x09

/-- A MAU_FAULT whose microaddress is not known (R329). -/
def State.mauFault (s : State) (u cause : Nat) : State :=
  (s.useFree 1).mauFaultAt u cause (Config.faultUaddr s.freeCtr).toNat

/-- The fault a unit meets, where the operand names one of R329's causes. -/
def faultCause (f : BitVec 3) : Option Nat := if f.toNat = 0 ∨ 6 < f.toNat then none else some f.toNat

/-! ## Start and macro operations -/

/-- A unit starts its staged call; a fault in its microcode ends it (R297, R330, R332). -/
def execMauCallStart (unit : BitVec 5) (fault : BitVec 3) (s : State) : Host.Outcome State Fault Refusal :=
  let u := unit.toNat
  let m := s.mau u
  .next (match m.stagedHalf with
  | none => s
  | some h =>
    if m.run.isSome || m.half0.aborting || m.half1.aborting || (m.half h).busyClear || m.down || m.direct then s
    else match (m.half h).call.bind s.call with
      | none => s
      | some c =>
        let m := { m.stop.enter c.opcode with run := some h, inst := c.inst, opc := c.opcode, startG := s.g }
        let s := s.setMau u m
        match faultCause fault with
        | some f => s.mauFault u f
        | none => s)

/-- The random blocks of the running call on a unit (R300, R312). -/
def Call.randOn (c : Call) (u : Nat) : Bytes :=
  let n := mauBlocks c.opcode
  let second := match c.place with | _ :: b :: _ => b.unit == u | _ => false
  ((c.rand.drop (if second then n else 0)).take n).flatten

/-- The key-store record of output key 0 in a half, after input keys 0 to 3: two shares under a fresh mask (R290). -/
def outKeyNum : Nat := 4
def outRecord (n : Nat) (key : Bytes) : MauKey :=
  let m := (List.range key.length).map fun j => Config.freeByte (n + j)
  { num := outKeyNum, share0 := (List.range key.length).map fun j => key.getD j 0#8 ^^^ m.getD j 0#8, share1 := m }

/-- Runs a macro operation on the call of a unit whose opcode it is: operand memory is left with blinded values, and an output
key stands in the key store (R290). -/
def State.macroOp (s : State) (unit : BitVec 5) (op : Nat) (f : Call → MauHalf → Bytes → MacroOut) : State :=
  let u := unit.toNat
  match s.runCall u with
  | none => s
  | some (_, c, h) =>
    let m := s.mau u
    if c.opcode != op || m.res.isSome then s
    else
      let o := f c (m.half h) (c.randOn u)
      let n := s.freeCtr
      let made := match o.key with | some b => [outRecord (n + 16384) b] | none => []
      let x := { m.half h with mem := [], junk := some n, keys := (m.half h).keys ++ made }
      (s.setMau u { m.setHalf h x with res := some o.res }).useFree (16384 + (o.key.getD []).length)

/-- RSA_KEYGEN (R305). -/
def execRsaKeygen (unit : BitVec 5) (s : State) : Host.Outcome State Fault Refusal :=
  .next (s.macroOp unit 0xB0 fun c _ r => rsaKeygenRes c r)

/-- RSA_SIGN (R302, R309). -/
def execRsaSign (unit : BitVec 5) (s : State) : Host.Outcome State Fault Refusal :=
  .next (s.macroOp unit 0xB1 fun c h r => rsaSignRes c h c.size.k r)

/-- RSA_VERIFY (R302, R308). -/
def execRsaVerify (unit : BitVec 5) (s : State) : Host.Outcome State Fault Refusal :=
  .next (s.macroOp unit 0xB2 fun c h _ => rsaVerifyRes c h c.size.k)

/-- RSA_DECRYPT (R302, R308, R309). -/
def execRsaDecrypt (unit : BitVec 5) (s : State) : Host.Outcome State Fault Refusal :=
  .next (s.macroOp unit 0xB3 fun c h _ => rsaDecryptRes c h c.size.k)

/-- RSA_ENCRYPT (R302, R308). -/
def execRsaEncrypt (unit : BitVec 5) (s : State) : Host.Outcome State Fault Refusal :=
  .next (s.macroOp unit 0xB4 fun c h r => rsaEncryptRes c h c.size.k r)

/-- EC_KEYGEN (R301, R303). -/
def execEcKeygen (unit : BitVec 5) (s : State) : Host.Outcome State Fault Refusal :=
  .next (s.macroOp unit 0xB5 fun c h r => ecKeygenRes c h c.size.f c.size.n r)

/-- ECDSA_SIGN (R303, R309, R311). -/
def execEcdsaSign (unit : BitVec 5) (s : State) : Host.Outcome State Fault Refusal :=
  .next (s.macroOp unit 0xB6 fun c h r => ecdsaSignRes c h c.size.f c.size.n r)

/-- ECDSA_VERIFY (R303, R308). -/
def execEcdsaVerify (unit : BitVec 5) (s : State) : Host.Outcome State Fault Refusal :=
  .next (s.macroOp unit 0xB7 fun c h _ => ecdsaVerifyRes c h c.size.f c.size.n)

/-- ECDH (R303, R308, R309). -/
def execEcdh (unit : BitVec 5) (s : State) : Host.Outcome State Fault Refusal :=
  .next (s.macroOp unit 0xB8 fun c h _ => ecdhRes c h c.size.f)

/-- EC_CURVE_LOAD (R304). -/
def execEcCurveLoad (unit : BitVec 5) (s : State) : Host.Outcome State Fault Refusal :=
  .next (s.macroOp unit 0xB9 fun c _ _ => curveLoadRes c)

/-! ## Raw lists -/

/-- MAU_RAW: the prologue accepts or refuses the list (R318). -/
def execMauRaw (unit : BitVec 5) (s : State) : Host.Outcome State Fault Refusal :=
  let u := unit.toNat
  .next (match s.runCall u with
  | none => s
  | some (_, c, _) =>
    let m := s.mau u
    if c.opcode != 0xBA || m.res.isSome || m.rawOk then s
    else if rawRefused c.input c.outLenMax then s.setMau u { m with res := some (MauRes.atV 0x06) }
    else s.setMau u (match (rawWords c.input)[0]? with
      | some w => { m.enter (rawRoutine w) with rawOk := true }
      | none => { m with rawOk := true }))

/-- The data bytes of a list (R315). -/
def rawDataOf (b : Bytes) : Bytes := b.drop (4 + 8 * rawCount b)

/-- A direct command that R318 refuses; LOAD and STORE are always (R321). -/
def Mau.directRefused (m : Mau) (w : W64) : Bool :=
  rCmd w == 1 || rCmd w == 2 || badWordRaw w || badOrder w (m.mods.map (·.1)) m.curve.isSome

/-- The next command of the running list, or the direct command in hand (R315, R321). -/
def State.rawNext (s : State) (u : Nat) : Option (W64 × Bytes) :=
  let m := s.mau u
  match s.runCall u with
  | some (_, c, _) =>
    if m.rawOk && m.res.isNone then ((rawWords c.input)[m.rawPos]?).map fun w => (w, (rawDataOf c.input).drop m.rawData)
    else none
  | none => (if m.direct && m.res.isNone then m.cmd.filter fun w => !m.directRefused w else none).map fun w => (w, [])

/-- A modulus that is even or whose top word is zero (R319). -/
def badModulus (l q : Nat) : Bool := q % 2 == 0 || decide (q < 2 ^ (64 * (l - 1)))

/-- The modulus a command works with is invalid: its results are not stated (R319). -/
def Mau.noModulus (m : Mau) (w : W64) : Bool :=
  let slot := if needsCurve (rCmd w) then (m.curve.map (·.m)).getD 8 else rM w
  needsMod (rCmd w) && match mget dfltMod m.mods slot with
    | some x => badModulus x.len x.q
    | none => true

/-- The slots a command writes. -/
def rawDest (w : W64) : List Nat :=
  match rCmd w with
  | 0x10 => []
  | 0x12 => [rD w, rD w + 1]
  | 0x13 => [rD w, rD w + 1]
  | _ => [rD w]

/-- Free values in the slots that a command without a valid modulus writes. -/
def Mau.putFree (m : Mau) (ctr l : Nat) : List Nat → Mau
  | [] => m
  | d :: t => (m.put d l (leNat ((List.range (8 * l)).map fun j => Config.freeByte (ctr + j)))).putFree (ctr + 8 * l) l t

/-- After a command: the list's next one, which starts on an empty stack, or its end with the bytes stored (R315, R319,
R332). -/
def State.rawAfter (s : State) (u : Nat) (m : Mau) : State :=
  match s.runCall u with
  | some (_, c, _) =>
    let n := m.rawPos + 1
    let r := if m.rawBad then MauRes.full 0x06 else MauRes.ok m.rawOut
    let m := { m with rawPos := n, uon := false, stack := [] }
    match if rawCount c.input ≤ n then none else (rawWords c.input)[n]? with
    | some w => s.setMau u (m.enter (rawRoutine w))
    | none => s.setMau u { m with res := some r }
  | none => s.setMau u { m with res := some (MauRes.ok []), uon := false, stack := [] }

/-- Runs one raw command of a code, where it is the one in hand. -/
def State.rawCmd (s : State) (unit : BitVec 5) (code : Nat) (f : Mau → W64 → Bytes → Mau) : State :=
  let u := unit.toNat
  match s.rawNext u with
  | none => s
  | some (w, data) =>
    let m := s.mau u
    if rCmd w != code then s
    else if m.noModulus w then
      let l := rawDest w
      (s.useFree (8 * rLen w * l.length)).rawAfter u (m.putFree s.freeCtr (rLen w) l)
    else s.rawAfter u (f m w data)

/-- Raw LOAD. -/
def execRawLoad (unit : BitVec 5) (s : State) : Host.Outcome State Fault Refusal :=
  .next (s.rawCmd unit 0x01 fun m w d => m.cLoad w d)

/-- Raw STORE. -/
def execRawStore (unit : BitVec 5) (s : State) : Host.Outcome State Fault Refusal :=
  .next (s.rawCmd unit 0x02 fun m w _ => m.cStore w)

/-- Raw MODSET. -/
def execRawModset (unit : BitVec 5) (s : State) : Host.Outcome State Fault Refusal :=
  .next (s.rawCmd unit 0x03 fun m w _ => m.cModset w)

/-- Raw MADD. -/
def execRawMadd (unit : BitVec 5) (s : State) : Host.Outcome State Fault Refusal :=
  .next (s.rawCmd unit 0x04 fun m w _ => m.cMod w fun q a b => (a + b) % q)

/-- Raw MSUB. -/
def execRawMsub (unit : BitVec 5) (s : State) : Host.Outcome State Fault Refusal :=
  .next (s.rawCmd unit 0x05 fun m w _ => m.cMod w fun q a b => subMod q a b)

/-- Raw MMUL. -/
def execRawMmul (unit : BitVec 5) (s : State) : Host.Outcome State Fault Refusal :=
  .next (s.rawCmd unit 0x06 fun m w _ => m.cMod w fun q a b => a * b % q * invR (rLen w) q % q)

/-- Raw MSQR. -/
def execRawMsqr (unit : BitVec 5) (s : State) : Host.Outcome State Fault Refusal :=
  .next (s.rawCmd unit 0x07 fun m w _ => m.cMod w fun q a _ => a * a % q * invR (rLen w) q % q)

/-- Raw TOMONT. -/
def execRawTomont (unit : BitVec 5) (s : State) : Host.Outcome State Fault Refusal :=
  .next (s.rawCmd unit 0x08 fun m w _ => m.cMod w fun q a _ => a * 2 ^ (64 * rLen w) % q)

/-- Raw FROMMONT. -/
def execRawFrommont (unit : BitVec 5) (s : State) : Host.Outcome State Fault Refusal :=
  .next (s.rawCmd unit 0x09 fun m w _ => m.cMod w fun q a _ => a % q * invR (rLen w) q % q)

/-- Raw MEXP. -/
def execRawMexp (unit : BitVec 5) (s : State) : Host.Outcome State Fault Refusal :=
  .next (s.rawCmd unit 0x0A fun m w _ => m.cMod w fun q a b => powMod q (rImm w) (a % q) b 1 % q)

/-- Raw MINV. -/
def execRawMinv (unit : BitVec 5) (s : State) : Host.Outcome State Fault Refusal :=
  .next (s.rawCmd unit 0x0B fun m w _ => m.cMod w fun q a _ => modInv a q)

/-- Raw ECSET. -/
def execRawEcset (unit : BitVec 5) (s : State) : Host.Outcome State Fault Refusal :=
  .next (s.rawCmd unit 0x10 fun m w _ => m.cEcset w)

/-- Raw ECCHK. -/
def execRawEcchk (unit : BitVec 5) (s : State) : Host.Outcome State Fault Refusal :=
  .next (s.rawCmd unit 0x11 fun m w _ => m.cEcchk w)

/-- Raw ECADD. -/
def execRawEcadd (unit : BitVec 5) (s : State) : Host.Outcome State Fault Refusal :=
  .next (s.rawCmd unit 0x12 fun m w _ => m.cEcadd w)

/-- Raw ECMUL. -/
def execRawEcmul (unit : BitVec 5) (s : State) : Host.Outcome State Fault Refusal :=
  .next (s.rawCmd unit 0x13 fun m w _ => m.cEcmul w)

/-! ## The end of a call (R298, R299, R307 to R310) -/

/-- The time of the running call in mc: V for a public defect, else T_full; a raw list takes its list time. -/
def State.mauTook (s : State) (u : Nat) (c : Call) (h : Nat) (r : MauRes) : Nat :=
  if c.opcode = 0xBA then listTime c.input c.outLenMax
  else if r.early then c.mauV
  else c.mauTime (some (rsaPublic c ((s.mau u).half h) c.size.k).2.1)

/-- What a half of a MAU call leaves to be compared and taken: status, output, and the shares of the output key in the key
store. -/
def MauRes.half (r : MauRes) (x : MauHalf) : HalfRes :=
  { word := [BitVec.ofNat 8 r.status], out := r.out
    key0 := (x.keys.find? fun k => k.num == outKeyNum).map fun k => (k.share0, k.share1)
    key1 := none, leave := none, denied := none }

/-- The key table takes the output keys of a MAU call; none when a seal finds no IV (R298, R468). -/
def State.mauTakeKeys (s : State) (r : HalfRes) : List OutKey → Option State
  | [] => some s
  | o :: t => match s.fillSlot o.slot (keyOf r.key0 o.klen) with
    | some s => s.mauTakeKeys r t
    | none => none

/-- The output keys are taken and the call completes OK (R24, R298). -/
def State.mauOk (s : State) (k : Nat) (c : Call) (r : HalfRes) : State :=
  match s.mauTakeKeys r c.okeys with
  | none => s.mauFinish k c 0x07
  | some t => t.mauFinish k { c with made := c.okeys.map fun o => (o.num, t.handleOf o.slot) } 0

/-- The status of a call whose halves have all ended (R299, R300, R386). -/
def State.mauVerdict (s : State) (c : Call) (rs : List HalfRes) : Nat :=
  if (s.inst c.inst).st == .inFlr then 0x08
  else if s.staleAtEnd c then 0x04
  else if (match rs with | [a, b] => halvesDiffer c false a b | _ => false) then 0x09
  else match rs with
    | r :: _ => leAt r.word 0 1
    | [] => 0x08

/-- Judges a MAU call whose halves have all ended: an output is kept for its push, else the call completes. -/
def State.mauJudge (s : State) (k : Nat) (c : Call) : State :=
  let rs := c.place.filterMap (·.res)
  let st := s.mauVerdict c rs
  let differ := match rs with | [a, b] => st == 0x09 && halvesDiffer c false a b | _ => false
  let s := if differ then { s with sch := { s.sch with cntPairfail := s.sch.cntPairfail + 1#32 } } else s
  match rs with
  | r :: _ =>
    if st != 0 then s.mauFinish k c st
    else if r.out.isEmpty then s.mauOk k c r
    else s.setCall k (some { c with st := .released, out := r.out, outLen := r.out.length, relG := s.g, due := s.g
                                    pushed := false, inFifo := false })
  | [] => s

/-- The running operation ends at V or T_full, or in a fault; an abort taken at the boundary discards its output
(R298, R299, R307 to R311, R324, R330). -/
def execMauCallEnd (unit : BitVec 5) (fault : BitVec 3) (s : State) : Host.Outcome State Fault Refusal :=
  let u := unit.toNat
  .next (match s.runCall u with
  | none => s
  | some (k, c, h) =>
    let m := s.mau u
    match m.res with
    | none => s
    | some r =>
      let s := s.goTo (m.startG + mauBeats (s.mauTook u c h r))
      match faultCause fault with
      | some f => s.mauFault u f
      | none =>
        if r.check then s.mauFault u 5
        else if m.abortReq && bit32 (s.reg (0x400008 + 0x1000 * u)) 0 then s.mauAbortCall k c 0x08
        else
          let m := (m.counted r.status).stop
          let s := s.setMau u (m.setHalf h (m.half h).ended)
          let c := { c with place := c.place.map fun x => if x.unit = u then { x with res := some (r.half (m.half h)) } else x }
          let s := s.setCall k (some c)
          if c.place.all fun x => x.res.isSome then s.mauJudge k c else s)

/-- The 256 mc of a clear have passed (R291, R292, R327). -/
def execMauClearDone (unit : BitVec 5) (half : Bool) (s : State) : Host.Outcome State Fault Refusal :=
  let m := s.mau unit.toNat
  let h := b2n half
  .next (s.setMau unit.toNat (m.setHalf h { m.half h with clearing := false, aborting := false }))

/-! ## The push of an output (R24, R31, R189, R246, R298) -/

/-- The bytes an OK call delivers: its CSM_OUT extent, or what its unit's operand memory holds. -/
def State.outBytes (s : State) (c : Call) : Bytes :=
  if isMauOp c.opcode then c.out
  else match c.var, c.place with
    | some v, h :: _ => (match v.ext 2 with | some r => s.getHalf h r c.outLen | none => [])
    | _, _ => []

/-- A staging mover pushes the output of a released call, where R372 leaves room. Outside the windows nothing leaves and
the call completes HOST_ACCESS_ERROR; in a Function Level Reset nothing is pushed (R386). -/
def execOutputPushDone (call : BitVec 32) (s : State) : Host.Outcome State Fault Refusal :=
  let k := call.toNat
  .next (match s.call k with
  | none => s
  | some c =>
    if c.st != .released || c.pushed || s.heldBack c then s
    else
      let mau := isMauOp c.opcode
      let b := s.outBytes c
      let fail (s : State) (st : Nat) : State :=
        if mau then s.mauFinish k c st
        else
          let s := (s.unmake c).freeFrames c.frees
          s.setCall k (some { c with pushed := true, status := st, made := [], outLen := 0, place := [] })
      if (s.inst c.inst).st == .inFlr then fail s 0x08
      else if !s.windowOk c.inst c.outAddr b.length true then fail (s.windowMiss c.inst c.queue) 0x10
      else
        let s := s.hostWrite c.outAddr b
        if mau then match c.place.filterMap (·.res) with
          | r :: _ => s.mauOk k c r
          | [] => s
        else (s.freeFrames c.frees).setCall k (some { c with pushed := true, place := [] }))

/-! ## Direct mode (R320 to R323) -/

/-- MAU_STAT.STATE (R337). -/
def Mau.stateCode (m : Mau) : Nat :=
  if m.down then 5
  else if m.direct then 4
  else if m.half0.busyClear || m.half1.busyClear then (if m.run.isSome then 2 else 3)
  else if m.run.isSome then 2
  else if m.half0.call.isSome || m.half1.call.isSome then 1
  else 0

/-- Both halves as direct mode finds and leaves them: cleared. -/
def Mau.wiped (m : Mau) : Mau :=
  { m.stop with half0 := { MauHalf.reset with last := m.half0.last }, half1 := { MauHalf.reset with last := m.half1.last }
                nextHalf := m.nextHalf, cmd := none }

/-- DIRECT ← 1 takes effect on an idle unit only (R320, R328). -/
def execMauDirectSet (unit : BitVec 5) (s : State) : Host.Outcome State Fault Refusal :=
  let u := unit.toNat
  let m := s.mau u
  .next (s.pfWrite fun s =>
    if m.direct then s
    else if m.stateCode = 0 then s.setMau u { m.wiped with direct := true } else s.mauAccess u)

/-- DIRECT ← 0: operand memory is cleared and the unit takes calls again (R323). -/
def execMauDirectClear (unit : BitVec 5) (s : State) : Host.Outcome State Fault Refusal :=
  let u := unit.toNat
  let m := s.mau u
  .next (s.pfWrite fun s => if m.direct then s.setMau u { m.wiped with direct := false } else s)

/-- DONE and the RESULT code; while IE is set the vector is raised (R321, R322). -/
def State.directDone (s : State) (u result : Nat) : State :=
  let s := s.setMau u { s.mau u with done := true, result := result }
  let cfg := s.reg (0x400008 + 0x1000 * u)
  if bit32 cfg 1 then s.raiseVec 0 (fld cfg 8 6) else s

/-- The direct command in hand ends (R321, R322, R325). -/
def State.directEnd (s : State) (u result : Nat) : State :=
  (s.setMau u { s.mau u with cmd := none, res := none, abortReq := false, uon := false, stack := [] }).directDone u result

/-- A write of MAU_RCMD_HI issues a direct command; one issued while the unit is busy ends at once with code 3, and the
running one goes on (R321; log entry 111). Outside direct mode the write has no effect and raises MAU_ACCESS (R663). -/
def execMauRcmdHiWrite (unit : BitVec 5) (value : BitVec 32) (s : State) : Host.Outcome State Fault Refusal :=
  let u := unit.toNat
  let m := s.mau u
  .next (s.pfWrite fun s =>
    if !m.direct then s.mauAccess u
    else if m.cmd.isSome then s.directDone u 3
    else
      let w := value ++ m.rcmdLo
      s.setMau u { m.enter (rawRoutine w) with cmd := some w, res := none, rawBad := false })

/-- A direct command ends (R321, R322). -/
def execMauDirectDone (unit : BitVec 5) (s : State) : Host.Outcome State Fault Refusal :=
  let u := unit.toNat
  let m := s.mau u
  .next (match m.direct, m.cmd with
  | true, some w =>
    if m.directRefused w then s.directEnd u 1
    else if m.abortReq && bit32 (s.reg (0x400008 + 0x1000 * u)) 0 then s.directEnd u 4
    else if m.res.isSome then s.directEnd u (if m.rawBad then 2 else 0)
    else s
  | _, _ => s)

/-- An access to MAU_OPM_DATA: a word of H0 at ADDR, then ADDR + 4; outside direct mode it is refused (R321, R337). -/
def execMauOpmDataAccess (unit : BitVec 5) (write : Option (BitVec 32)) (s : State) :
    Host.Outcome State Fault Refusal :=
  let u := unit.toNat
  let m := s.mau u
  .next (if !s.boot.ready then ({ s with rdata := if write.isNone then 0#32 else s.rdata }).bringupAccess 0
  else if !m.direct then ({ s with rdata := if write.isNone then 0#32 else s.rdata }).mauAccess u
  else
    let a := m.opmAddr / 4 * 4
    let next := (m.opmAddr + 4) % 0x4000
    match write with
    | some v => s.setMau u { m with half0 := m.half0.wr a (natLe 4 v.toNat), opmAddr := next }
    | none => { s.setMau u { m with opmAddr := next } with rdata := BitVec.ofNat 32 (leNat (m.half0.rd a 4)) })

/-! ## Aborts and service -/

/-- A software abort is requested (R324). -/
def execMauAbort (unit : BitVec 5) (s : State) : Host.Outcome State Fault Refusal :=
  let u := unit.toNat
  let m := s.mau u
  .next (s.pfWrite fun s => if m.run.isSome || m.cmd.isSome then s.setMau u { m with abortReq := true } else s)

/-- ABORT_MODE is 1: boundary sampling (R324). -/
def State.abortAtEnd (s : State) (u : Nat) : Bool := bit32 (s.reg (0x400008 + 0x1000 * u)) 0

/-- The work in hand of a unit ends by a software abort (R325, R327). -/
def State.mauAbortNow (s : State) (u : Nat) : State :=
  match s.runCall u with
  | some (k, c, _) => s.mauAbortCall k c 0x08
  | none => if (s.mau u).direct && (s.mau u).cmd.isSome then s.directEnd u 4 else s

/-- The abort takes effect: in mode 0 at a safe point, in mode 1 at the end of the operation (R324, R325, R327). -/
def execMauAbortTake (unit : BitVec 5) (s : State) : Host.Outcome State Fault Refusal :=
  let u := unit.toNat
  let m := s.mau u
  .next (if !m.abortReq || (s.abortAtEnd u && m.res.isNone) then s else s.mauAbortNow u)

/-- OOS: no new call is placed while it is set (R337). -/
def execMauOos (unit : BitVec 5) (on : Bool) (s : State) : Host.Outcome State Fault Refusal :=
  .next (s.pfWrite fun s => s.setMau unit.toNat { s.mau unit.toNat with oos := on })

/-! ## Patch RAM (R334, R337) -/

/-- A unit with a microword written at its patch address, which moves on. -/
def Mau.patched (m : Mau) (a : Nat) (w : BitVec 160) : Mau :=
  { m with patch := mset (fun _ => 0#160) m.patch a w, patchAddr := (a + 1) % 1024, patchBuf := [] }

/-- The patch RAM of the units that `l` lists takes a microword, where it is not locked. -/
def State.patchAll (s : State) (a : Nat) (w : BitVec 160) (l : List Nat) : State :=
  l.foldl (fun s v => if (s.mau v).locked then s else s.setMau v { s.mau v with patch := mset (fun _ => 0#160) (s.mau v).patch a w }) s

/-- What MAU_PATCH_DATA holds: the last word of a microword in the making (log entry 55). -/
def Mau.patchData (m : Mau) : W32 := (m.patchBuf.getLast?).getD 0#32

/-- MAU_PATCH_DATA: every fifth write makes a microword, bits [31:0] first. After LOCK, or in SCRAP, a write has no effect
and raises MAU_ACCESS where it asks for a change (R334, R337, R527, R663). -/
def execMauPatchDataWrite (unit : BitVec 5) (value : BitVec 32) (s : State) : Host.Outcome State Fault Refusal :=
  let u := unit.toNat
  let m := s.mau u
  .next (if m.locked || s.lc == .scrap then (if value != m.patchData then s.mauAccess u else s)
  else
    let buf := m.patchBuf ++ [value]
    if buf.length < 5 then s.setMau u { m with patchBuf := buf }
    else
      let w : BitVec 160 := BitVec.ofNat 160 (leNat (buf.flatMap fun x => natLe 4 x.toNat))
      let s := if u = 0 ∧ bit32 (s.reg 0x400038) 30 then s.patchAll m.patchAddr w ((List.range 32).drop 1) else s
      s.setMau u (m.patched m.patchAddr w))

/-- MAU_PATCH_CTRL with LOCK set: the patch RAM and the match registers stay as they are, and VER becomes PATCH_VER
(R334, R337). -/
def execMauPatchLock (unit : BitVec 5) (value : BitVec 32) (s : State) : Host.Outcome State Fault Refusal :=
  let u := unit.toNat
  let m := s.mau u
  let a := 0x400038 + 0x1000 * u
  .next (if m.locked || s.lc == .scrap then (if value &&& 0xC000FFFF#32 != s.reg a then s.mauAccess u else s)
  else
    let v := (value &&& (if u = 0 then 0x4000FFFF#32 else 0xFFFF#32)) ||| 0x80000000#32
    (s.setReg a v).setMau u { m with locked := true, patchVer := fld value 0 16 })

end Sys2Proof.Machine
end

