-- ==== Sys2Proof/Machine/Status.lean ====
section
/-!
DEFINITION. Status words that several readers compose: life cycle (R511, R523, R524, R529), boot (R549), tamper (R577),
entropy (R475), recorder (R610), link (R398), card host (R635); the identity and the attestation report (R8, R633, R669).
-/
namespace Sys2Proof.Machine

/-- A flag at a bit of a word. -/
def flagAt (b : Bool) (i : Nat) : W32 := at32 (b2n b) i

/-! ## Life cycle -/

/-- DEBUG_KILL is in effect: any of its 24 bits is 1 (R522). -/
def State.killed (s : State) : Bool := s.otp.kill != 0#24

/-- What R524 does not close, for SCOPE: bit 0 JTAG, bit 1 readback, bit 2 Supervisor debug. -/
def State.debugAllowed (s : State) : BitVec 3 :=
  if s.killed || !s.lcc.decoded then 0#3
  else match s.lc with
    | .raw => 7#3 | .test => 7#3 | .mfg => 7#3 | .rma => 7#3 | .scrap => 0#3
    | .owned => if s.lcc.config = 1 then 3#3 else 0#3

/-- The debug enables asserted now (R524). -/
def State.debugEn (s : State) : BitVec 3 :=
  match s.lc with
  | .mfg => s.debugAllowed &&& s.lcc.granted
  | .owned => s.debugAllowed &&& s.lcc.granted
  | _ => s.debugAllowed

/-- LCC_STAT (R529). -/
def State.lccStat (s : State) : W32 :=
  at32 s.lc.code 29 ||| flagAt s.lcc.invalid 28 ||| at32 s.lcc.oks.toNat 25 ||| flagAt s.lcc.part 24
    ||| at32 s.lcc.config 22 ||| flagAt s.killed 21 ||| flagAt (s.debugEn.getLsbD 0) 20
    ||| flagAt (s.debugEn.getLsbD 1) 19 ||| flagAt (s.debugEn.getLsbD 2) 18 ||| flagAt (s.lcc.granted != 0#3) 17

/-- LCC_XSTAT (R529). -/
def State.lccXstat (s : State) : W32 :=
  at32 ((s.lcc.trans.map (·.phase)).getD 0) 28 ||| at32 (s.lcc.target % 256) 20 ||| at32 (s.lcc.result % 256) 0

/-- POWER_LIMIT: the OR of the copies (R522). -/
def Otp.power (o : Otp) : Nat := (o.pow0 ||| o.pow1 ||| o.pow2).toNat

/-! ## Boot -/

/-- MAU units and clusters in service (R549). -/
def State.mausUp (s : State) : Nat :=
  if s.boot.katDone then ((List.range 32).filter fun u => (s.mau u).stateCode != 5).length else 0
def State.clustersUp (s : State) : Nat := ((List.range 16).filter fun c => (s.cl c).inService).length

/-- SUP_BOOT_STAT (R549). -/
def State.supBootStat (s : State) : W32 :=
  flagAt s.boot.ready 31 ||| flagAt s.boot.halted 30 ||| at32 s.boot.phase 24 ||| at32 s.boot.haltCode 16
    ||| at32 s.mausUp 8 ||| at32 s.clustersUp 2 ||| at32 s.boot.slot 0

/-- SUP_RESET_CAUSE (R549). -/
def State.supResetCause (s : State) : W32 :=
  flagAt s.boot.bbramLost 31 ||| flagAt s.boot.evidenceMoved 30 ||| flagAt s.boot.fallback 29 ||| at32 s.boot.cause 0

/-- SUP_FW_SLOTS (R549). -/
def State.supFwSlots (s : State) : W32 :=
  flagAt s.boot.aValid 31 ||| at32 s.boot.failsA 28 ||| at32 s.boot.aSvn 16 ||| flagAt s.boot.bValid 15
    ||| at32 s.boot.failsB 12 ||| at32 s.boot.bSvn 0

/-- SUP_OTP_MIN (R549). -/
def State.supOtpMin (s : State) : W32 := at32 s.otp.patchMin 8 ||| at32 s.otp.fwMin 0

/-! ## Tamper, entropy, recorder, link, card -/

/-- Global beats that cover a number of milliseconds. -/
def msBeats (ms : Nat) : Nat := (ms * 78125 + 1) / 2

/-- A source at L2 or above is active (R553). -/
def Tmp.disturbed (t : Tmp) : Bool := t.active.any fun a => decide (2 ≤ a.level)

/-- The global beat at which the hold ends (R553). -/
def Tmp.holdEnd (t : Tmp) : Int := t.holdFrom + msBeats t.holdMs

/-- Milliseconds left in the hold (R577). -/
def State.holdLeft (s : State) : Nat :=
  if s.tmp.resp = 2 ∧ !s.tmp.disturbed then (((s.tmp.holdEnd - s.g).toNat) * 2 + 78124) / 78125 else 0

/-- TMP_STAT, TMP_TEMP, TMP_EVIDENCE (R577). -/
def State.tmpStat (s : State) : W32 := at32 s.tmp.resp 29 ||| at32 s.tmp.first 16 ||| at32 (min s.holdLeft 0xFFFF) 0
def State.tmpTemp (s : State) : W32 := at32 s.tmp.tj.toNat 0
def State.tmpEvidence (s : State) : W32 :=
  flagAt (decide (512 ≤ s.otp.evidence)) 31 ||| at32 s.tmp.evid 16 ||| at32 s.otp.evidence 0

/-- What an unlisted noise source reads as. -/
def dfltSrc : Nat → Source := fun _ => Source.reset
def State.src (s : State) (n : Nat) : Source := mget dfltSrc s.ent.sources n
def State.setSrc (s : State) (n : Nat) (x : Source) : State :=
  { s with ent := { s.ent with sources := mset dfltSrc s.ent.sources n x } }

/-- Codes of the modes and states of ENT (R475). -/
def EntMode.code : EntMode → Nat
  | .startup => 0 | .full => 1 | .degraded => 2 | .halted => 3
def SrcSt.code : SrcSt → Nat
  | .off => 0 | .startup => 1 | .pass => 2 | .failed => 3 | .disabled => 4
def DrbgSt.code : DrbgSt → Nat
  | .uninst => 0 | .serving => 1 | .reseeding => 2 | .stopped => 3

/-- The sources in PASS, and how many. -/
def State.passes (s : State) (n : Nat) : Bool := (s.src n).st == .pass
def State.passing (s : State) : Nat := ((List.range 4).filter s.passes).length

/-- ENT_STAT (R475). -/
def State.entStat (s : State) : W32 :=
  at32 s.ent.mode.code 29 ||| at32 (((List.range 4).map fun n => b2n (s.passes n) * 2 ^ n).foldl (· + ·) 0) 16
    ||| at32 ((List.range 16).filter fun d => (s.drbg d).st == .serving).length 8 ||| flagAt s.ent.block.isSome 1
    ||| flagAt s.ent.katOk 0

/-- Bytes of the ring not yet checkpointed (R603). -/
def Evr.uncheckpointed (e : Evr) : Nat := (e.recs.filter (·.dirty)).foldl (fun n r => n + r.len) 0

/-- EVR_STAT (R610). -/
def State.evrStat (s : State) : W32 :=
  flagAt s.evr.ringOk 31 ||| flagAt s.evr.norOk 30 ||| flagAt s.evr.ckptBusy 29 ||| at32 s.evr.lgUsed 21
    ||| at32 s.evr.lgDrop 16 ||| at32 (min (s.evr.uncheckpointed / 16) 0xFFFF) 0

/-- HIU_STAT (R398). -/
def State.hiuStat (s : State) : W32 :=
  flagAt s.link.up 31 ||| flagAt s.link.flit 30 ||| at32 s.link.speed 24 ||| at32 s.link.width 16
    ||| at32 (if s.link.vfEnable then s.link.numVf else 0) 8

/-- SDH_STAT (R635). -/
def State.sdhStat (s : State) : W32 :=
  flagAt s.sd.present 31 ||| flagAt s.sd.wp 30 ||| flagAt s.sd.ready 29 ||| flagAt s.sd.job.isSome 28
    ||| at32 s.sd.mode 20 ||| flagAt s.sd.v18 19 ||| flagAt s.sd.sdxc 16 ||| at32 (s.sd.capGib % 65536) 0

/-! ## Identity and attestation -/

/-- The seed of the identity key (R404); without KR_MFG there is none and the model derives it from 0. -/
def State.identitySeed (s : State) : BitVec 256 :=
  kmac256 ((s.otp.krMfg.map Root.val).getD 0#256) (ascii "ID") (ascii "AK-IDENT")

/-- TARGET_ID: SHA3-256 of the identity public key (R389, R439, R513). -/
def State.targetId (s : State) : Bytes := natLe 32 (sha3_256 (Config.identityPk s.identitySeed)).toNat

/-- The chain that GET_IDENTITY returns (R8, R383). -/
def State.certChain (s : State) : Bytes := Config.certChain (Config.identityPk s.identitySeed)

/-- The 64 score-store entries of a report (R633). -/
def State.scoreList (s : State) : Bytes :=
  (List.range 64).flatMap fun i => match s.score i with
    | some x => natLe 4 x.scoreId ++ natLe 4 x.version
    | none => List.replicate 8 0#8

/-- An attestation report (R633). -/
def State.report (s : State) (route : Nat) (nonce : Bytes) : Bytes :=
  let body := natLe 4 0x31414B41 ++ natLe 2 1 ++ natLe 1 route ++ natLe 1 0 ++ s.targetId ++ padTo 32 nonce
    ++ natLe 4 s.lccStat.toNat ++ natLe 4 s.boot.fwVer.toNat ++ natLe 4 s.supOtpMin.toNat
    ++ natLe 2 (s.mau 0).patchVer ++ natLe 2 0 ++ natLe 4 s.supBootStat.toNat ++ natLe 4 s.tmpEvidence.toNat
    ++ natLe 4 s.otp.era ++ natLe 4 s.evr.pcyc ++ natLe 4 s.evr.opsec ++ natLe 4 0 ++ s.scoreList
  body ++ padTo 4627 (Config.identitySign s.identitySeed body)

/-- The low 16 bits of the version of library image `k`, where the store holds it (R669). -/
def State.libVersion (s : State) (k : Nat) : Nat :=
  match s.scores.find? fun e => e.2.scoreId == 0x4C000000 + k with
  | some e => e.2.version % 65536
  | none => 0

/-- The 48 bytes of GET_VERSIONS (R669). -/
def State.versions (s : State) : Bytes :=
  natLe 4 s.lccStat.toNat ++ natLe 4 s.boot.fwVer.toNat ++ natLe 2 (s.mau 0).patchVer ++ natLe 2 0
    ++ natLe 4 s.supOtpMin.toNat ++ ((List.range 13).flatMap fun k => natLe 2 (s.libVersion (k + 1))) ++ natLe 6 0

end Sys2Proof.Machine
end

