-- ==== Sys2Proof/Machine/Debug.lean ====
section
/-!
DEFINITION. Debug readback of an engine (R93 to R100), and taking a cluster out of service or resetting it (R104).
-/
namespace Sys2Proof.Machine

/-! ## DE_DBG_CTRL -/

/-- The engine a cluster's DE_DBG_CTRL selects. -/
def State.dbgEng (s : State) (c : Nat) : Nat := 32 * c + (s.cl c).dbgSel

/-- EN takes effect at once on an engine that is not in a peal, else at its release beat (R94). -/
def State.dbgOpen (s : State) (c : Nat) : State :=
  let i := s.dbgEng c
  if (s.eng i).peal.isSome then s else s.setEng i { s.eng i with dbgOn := true }

/-- EN drops: an engine that the debugger holds, or that runs no peal, is scrubbed and returns to IDLE; one that still
issues the words of its peal is scrubbed in its scrub beat (R98, R526; log entry 40). -/
def State.dbgClose (s : State) (c : Nat) : State :=
  let i := s.dbgEng c
  let s := s.setCl c { s.cl c with dbgEn := false }
  let e := { s.eng i with dbgOn := false }
  if e.peal.isSome && (e.mode == .run || e.mode == .ended || e.mode == .left) then s.setEng i e
  else s.setEng i { e.scrub with mode := if e.peal.isSome then .left else .idle, eri := 0, cause := 0 }

/-- The instruction boundary at which HALT stops an engine; a call in its peal will end with ABORTED (R96). -/
def Engine.halt (e : Engine) : Engine :=
  { e with mode := .halted
           leave := if e.peal.isSome && e.leave.isNone then some .debugHalt else e.leave }

/-- HALT, STEP and RESUME act on the selected engine while EN is in effect for it; STEP and RESUME on a halted one (R96,
R97). -/
def State.dbgDrive (s : State) (c : Nat) (w : W32) : State :=
  let i := s.dbgEng c
  let e := s.eng i
  if !e.dbgOn then s
  else
    let e := if bit32 w 14 && e.mode != .halted then e.halt else e
    let e := if bit32 w 13 && e.mode == .halted then { e with mode := .stepping }
      else if bit32 w 12 && e.mode == .halted then { e with mode := .resumed } else e
    s.setEng i e

/-- A write of DE_DBG_CTRL by the Manager (R93, R94, R98, R99). -/
def State.dbgCtrlWrite (s : State) (c : Nat) (w : W32) : State :=
  let k := s.cl c
  if !s.debugEn.getLsbD 1 then s.raise blkLcc 0 0#32 0#32
  else if k.dbgEn && fld w 0 5 != k.dbgSel then s.raise c 23 0#32 0#32
  else
    let s := s.setCl c { k with dbgHaltExc := bit32 w 11, dbgSel := fld w 0 5 }
    let s := if bit32 w 15 && !k.dbgEn then (s.setCl c { s.cl c with dbgEn := true }).dbgOpen c
      else if !bit32 w 15 && k.dbgEn then s.dbgClose c else s
    s.dbgDrive c w

/-- DE_DBG_CTRL as it reads: EN, HALTEXC and SEL (R102). -/
def Cluster.dbgCtrl (k : Cluster) : W32 := flagAt k.dbgEn 15 ||| flagAt k.dbgHaltExc 11 ||| at32 (k.dbgSel % 32) 0

/-- A write that sets EN, with HALTEXC and SEL as given (R94). -/
def execDebugEnSet (cluster : BitVec 4) (sel : BitVec 5) (haltExc : Bool) (s : State) : Host.Outcome State Fault Refusal :=
  .next (s.pfWrite fun s => s.dbgCtrlWrite cluster.toNat (0x8000#32 ||| flagAt haltExc 11 ||| at32 sel.toNat 0))

/-- A write that clears EN and leaves HALTEXC and SEL (R98). -/
def execDebugEnClear (cluster : BitVec 4) (s : State) : Host.Outcome State Fault Refusal :=
  .next (s.pfWrite fun s => s.dbgCtrlWrite cluster.toNat ((s.cl cluster.toNat).dbgCtrl &&& 0x81F#32))

/-- A write of HALT (R96). -/
def execDebugHalt (cluster : BitVec 4) (s : State) : Host.Outcome State Fault Refusal :=
  .next (s.pfWrite fun s => s.dbgCtrlWrite cluster.toNat ((s.cl cluster.toNat).dbgCtrl ||| 0x4000#32))

/-- A write of STEP: the next word issued is the one that halts again (R97). -/
def execDebugStep (cluster : BitVec 4) (s : State) : Host.Outcome State Fault Refusal :=
  .next (s.pfWrite fun s => s.dbgCtrlWrite cluster.toNat ((s.cl cluster.toNat).dbgCtrl ||| 0x2000#32))

/-- A write of RESUME (R97). -/
def execDebugResume (cluster : BitVec 4) (s : State) : Host.Outcome State Fault Refusal :=
  .next (s.pfWrite fun s => s.dbgCtrlWrite cluster.toNat ((s.cl cluster.toNat).dbgCtrl ||| 0x1000#32))

/-! ## The debug space (R100) -/

/-- The 32-bit word at byte `o` of a number. -/
def word32 (x o : Nat) : Nat := x / 2 ^ (8 * o) % 2 ^ 32

/-- A number with the 32-bit word at byte `o` replaced. -/
def putWord32 (x o v : Nat) : Nat := x - word32 x o * 2 ^ (8 * o) + v % 2 ^ 32 * 2 ^ (8 * o)

/-- A word of the debug space of an engine (R100). -/
def Engine.dbgRead (e : Engine) (a : Nat) : Nat :=
  if a < 0x20000 then leNat (rdBytes e.dmem a 4)
  else if 0x100000 ≤ a ∧ a < 0x104000 then word32 (e.vreg (a % 0x4000 / 0x200)).toNat (a % 0x200)
  else if 0x110000 ≤ a ∧ a < 0x110100 then word32 (e.sreg (a % 0x100 / 8)).toNat (a % 8)
  else if 0x111000 ≤ a ∧ a < 0x111200 then word32 (e.preg (a % 0x200 / 0x40)).toNat (a % 0x40)
  else if a = 0x112000 then e.pc
  else if a = 0x112004 then e.vl
  else if a = 0x112008 then e.eri
  else if a = 0x11200C then e.cause
  else if 0x113000 ≤ a ∧ a < 0x113258 then word32 (e.kslot ((a - 0x113000) / 200)).toNat ((a - 0x113000) % 200)
  else if 0x120000 ≤ a ∧ a < 0x128000 then word32 (e.imemWord (a % 0x8000 / 8)).toNat (a % 8)
  else 0

/-- An engine after a word of its debug space is written; IMEM is read-only (R100). -/
def Engine.dbgWrite (e : Engine) (a v : Nat) : Engine :=
  let fix (e : Engine) (p : ParityPlace → Bool) : Engine := { e with badParity := e.badParity.filter fun x => !p x }
  if a < 0x20000 then
    fix { e with dmem := wrBytes e.dmem a (natLe 4 v) } fun x => match x with
      | .dmem b => decide (a ≤ b) && decide (b < a + 4)
      | _ => false
  else if 0x100000 ≤ a ∧ a < 0x104000 then
    let n := a % 0x4000 / 0x200
    fix (e.setVreg n (BitVec.ofNat 4096 (putWord32 (e.vreg n).toNat (a % 0x200) v))) (· == .vreg n)
  else if 0x110000 ≤ a ∧ a < 0x110100 then
    let n := a % 0x100 / 8
    fix (e.setSreg n (BitVec.ofNat 64 (putWord32 (e.sreg n).toNat (a % 8) v))) (· == .sreg n)
  else if 0x111000 ≤ a ∧ a < 0x111200 then
    let n := a % 0x200 / 0x40
    fix (e.setPreg n (BitVec.ofNat 512 (putWord32 (e.preg n).toNat (a % 0x40) v))) (· == .preg n)
  else if a = 0x112000 then { e with pc := v % 4096 }
  else if a = 0x112004 then e.setVl v
  else if a = 0x112008 then { e with eri := v % 1024 }
  else if a = 0x11200C then { e with cause := v % 16 }
  else if 0x113000 ≤ a ∧ a < 0x113258 then
    let n := (a - 0x113000) / 200
    e.setKslot n (BitVec.ofNat 1600 (putWord32 (e.kslot n).toNat ((a - 0x113000) % 200) v))
  else e

/-- The debug space answers: EN is in effect for the selected engine and it is HALTED (R100). -/
def State.dbgReach (s : State) (c : Nat) : Bool := let e := s.eng (s.dbgEng c); e.dbgOn && e.mode == .halted

/-- The word address DE_DBG_ADDR holds. -/
def Cluster.dbgWord (k : Cluster) : Nat := k.dbgAddr / 4 * 4

/-- Each access adds 4 to ADDR (R102). -/
def State.dbgBump (s : State) (c : Nat) : State :=
  s.setCl c { s.cl c with dbgAddr := ((s.cl c).dbgAddr + 4) % 2 ^ 32 }

/-- A debug access is denied while the LCC does not enable readback (R37). -/
def State.dbgDenied (s : State) : Bool := !s.debugEn.getLsbD 1

/-- A write of DE_DBG_ADDR; its two low bits are stored, and the data access drops them (R102; log entry 107). -/
def State.dbgAddrWrite (s : State) (c : Nat) (w : W32) : State :=
  if s.dbgDenied then s.raise blkLcc 0 0#32 0#32 else s.setCl c { s.cl c with dbgAddr := w.toNat }

/-- A read of DE_DBG_DATA (R37, R100). -/
def State.dbgDataRead (s : State) (c : Nat) : State :=
  if s.dbgDenied then { s with rdata := 0#32 }.raise blkLcc 0 0#32 0#32
  else
  let v := if s.dbgReach c then (s.eng (s.dbgEng c)).dbgRead (s.cl c).dbgWord else 0
  { (s.dbgBump c) with rdata := BitVec.ofNat 32 v }

/-- A write of DE_DBG_DATA (R37, R100). -/
def State.dbgDataWrite (s : State) (c : Nat) (v : W32) : State :=
  if s.dbgDenied then s.raise blkLcc 0 0#32 0#32
  else
  let i := s.dbgEng c
  let s' := if s.dbgReach c then s.setEng i ((s.eng i).dbgWrite (s.cl c).dbgWord v.toNat) else s
  s'.dbgBump c

/-- The Manager accesses DE_DBG_DATA (R100). -/
def execDebugDataAccess (cluster : BitVec 4) (write : Bool) (value : BitVec 32) (s : State) :
    Host.Outcome State Fault Refusal :=
  .next (if write then s.pfWrite fun s => s.dbgDataWrite cluster.toNat value
    else if s.boot.ready then s.dbgDataRead cluster.toNat
    else { (s.bringupAccess 0) with rdata := 0#32 })

/-! ## Out of service and reset (R104) -/

/-- A write of OOS: the cluster closes to admission, or reopens (R104). -/
def State.setOos (s : State) (c : Nat) (on : Bool) : State := s.setCl c { s.cl c with oos := on }

/-- The calls planned on a cluster run again elsewhere, or wait in the pool (log entry 41). -/
def State.replanCl (s : State) (c : Nat) : State :=
  (s.allCalls.filter fun e => isEngineOp e.2.opcode && e.2.place.any fun h => h.unit / 32 == c && h.res.isNone).foldl
    (fun s e => match e.2.var with | some v => s.rerun e.1 e.2 v false | none => s) s

/-- A cluster after RST: cleared, with its power-cap step, OOS and the releases that wait for the completion writer
(R104, R185; log entry 41). Its fault registers keep what they hold. -/
def Cluster.rst (k : Cluster) (g : Nat) : Cluster :=
  { Cluster.reset with gRef := g, capStep := k.capStep, oos := k.oos, fifo := k.fifo, idleSince := g }

/-- An engine after RST of its cluster: its resident score is to be loaded again (R104). -/
def Engine.rst (e : Engine) : Engine :=
  { Engine.reset with resident := e.resident, loading := e.loading, needReload := e.resident.isSome, frames := e.frames
                      nextFrame := e.nextFrame }

/-- A write of RST: it takes effect while INSERVICE and RUNNING are 0 (R104). -/
def State.clusterRst (s : State) (c : Nat) : State :=
  if (s.cl c).inService || s.running c != 0 then s.raise c 23 0#32 0#32
  else
    let s := s.replanCl c
    let s := s.setCl c ((s.cl c).rst s.g)
    (s.mapEngines c Engine.rst 32).setReg (vpwrReg c) 0xF43#32

/-- The Manager sets or clears OOS (R104). -/
def execClusterOos (cluster : BitVec 4) (on : Bool) (s : State) : Host.Outcome State Fault Refusal :=
  .next (s.pfWrite fun s => s.setOos cluster.toNat on)

/-- The Manager writes RST (R104). -/
def execClusterRst (cluster : BitVec 4) (s : State) : Host.Outcome State Fault Refusal :=
  .next (s.pfWrite fun s => s.clusterRst cluster.toNat)

end Sys2Proof.Machine
end

