-- ==== Sys2Proof/Machine/Mailbox.lean ====
section
/-!
DEFINITION. The mailbox and its commands of the Host Interface and the key chapters (R379 to R383, R439 to R441, R470,
R633, R669).
-/
namespace Sys2Proof.Machine

/-- GO passes the message to the Supervisor; while BUSY or OUT_VALID is set it is refused (R380). An unlisted CMD is
answered at once (R383). -/
def State.mbxGo (s : State) (i : Nat) : State :=
  let x := s.inst i
  if x.mbx.busy || x.mbx.outValid then
    (s.setInst i { x with mbx := { x.mbx with overrun := true } }).raiseHiu 23 i 0 0
  else
    let m := { x.mbx with busy := true, taken := false, answer := none, sentAt := s.g }
    let s := s.setInst i { x with mbx := m }
    if (mbxLen m.cmd).isNone then s.answerMbx i 0x12 [] else s

/-- A write of MBX_DOORBELL.GO (R380, R544). -/
def execMbxDoorbellGo (inst : BitVec 8) (s : State) : Host.Outcome State Fault Refusal :=
  .next (s.pageWrite inst.toNat fun s => s.mbxGo inst.toNat)

/-- An outbound message lands in MBX_OUT: BUSY clears, OUT_VALID is set, and the mailbox vector is raised (R379, R380). -/
def State.landAnswer (s : State) (i status : Nat) (payload : Bytes) : State :=
  let x := s.inst i
  let p := payload.take 248
  let msg := natLe 1 x.mbx.cmd ++ natLe 1 x.mbx.inSeq ++ natLe 2 p.length ++ natLe 1 status ++ natLe 3 0 ++ p
  let m := { x.mbx with out := wrBytes x.mbx.out 0 msg, busy := false, taken := false, answer := none, outValid := true
                        seq := x.mbx.inSeq }
  (s.setInst i { x with mbx := m }).raiseVec i 16

/-- The Supervisor's answer lands (R380); in a Function Level Reset the mailbox is about to be reset (R386). A parity
error of the Supervisor's memory completes the command in service ABORTED (R590). -/
def execMailboxAnswer (inst : BitVec 8) (supParity : Bool) (s : State) : Host.Outcome State Fault Refusal :=
  let i := inst.toNat
  let x := s.inst i
  .next (if supParity then
    let s := s.raise blkSup 1 0#32 0#32
    if x.mbx.busy && x.st != .inFlr then (s.forgetOwed i).landAnswer i 0x08 [] else s
  else match x.mbx.answer with
  | some (st, p) => if x.st == .inFlr then s else s.landAnswer i st p
  | none => s)

/-- 10 s without an answer: the HIU answers ABORTED and discards a later answer (R381). -/
def execMailboxTimeout (inst : BitVec 8) (s : State) : Host.Outcome State Fault Refusal :=
  let i := inst.toNat
  let x := s.inst i
  .next (if x.mbx.busy && x.mbx.answer.isNone && x.st != .inFlr then
    (((s.goTo (x.mbx.sentAt + 10 * beatsPerSec)).forgetOwed i).landAnswer i 0x08 []).raiseHiu 24 i 0 0
  else s)

/-- GET_VERSIONS (R669). -/
def execGetVersions (inst : BitVec 8) (s : State) : Host.Outcome State Fault Refusal :=
  .next (s.mbxRun inst.toNat 0x01 fun _ s => s.answerMbx inst.toNat 0x00 s.versions)

/-- GET_IDENTITY: the chain goes to the named buffer (R382, R383). -/
def execGetIdentity (inst : BitVec 8) (s : State) : Host.Outcome State Fault Refusal :=
  .next (s.mbxRun inst.toNat 0x02 fun p s => s.answerBuf inst.toNat (bufAddr p 0) (bufLen p 0) s.certChain [])

/-- ATTEST: a signed report goes to the named buffer (R383, R633). -/
def execAttest (inst : BitVec 8) (s : State) : Host.Outcome State Fault Refusal :=
  .next (s.mbxRun inst.toNat 0x03 fun p s =>
    s.answerBuf inst.toNat (bufAddr p 32) (bufLen p 32) (s.report 0 (p.take 32)) [])

/-! ## GET_RANDOM -/

/-- The next `n` words of the Supervisor's buffer, refilled from the bank as it empties, `f` refills at most; none when
no instance serves (R469, R470). -/
def State.supWords (s : State) (n : Nat) : Nat → Option (List W32 × State)
  | 0 => none
  | f + 1 =>
    let have_ := s.ent.supBuf
    if n ≤ have_.length then
      some (have_.take n, { s with ent := { s.ent with supBuf := have_.drop n } })
    else match s.draw with
      | none => none
      | some (x, t) =>
        let fresh := (List.range 16).map fun k => BitVec.ofNat 32 (x.toNat / 2 ^ (32 * k))
        let t := { t with ent := { t.ent with supBuf := fresh } }
        (t.supWords (n - have_.length) f).map fun r => (have_ ++ r.1, r.2)

/-- GET_RANDOM: N bytes inline (R470); it waits while no instance serves (R463). -/
def execGetRandom (inst : BitVec 8) (s : State) : Host.Outcome State Fault Refusal :=
  let i := inst.toNat
  .next (s.mbxRun i 0x20 fun p s =>
    let n := leAt p 0 1
    if n = 0 ∨ 248 < n then s.answerMbx i 0x0A []
    else if s.ent.mode == .halted then s.deniedDraw.answerMbx i 0x07 []
    else match s.supWords ((n + 3) / 4) 8 with
      | none => s
      | some (w, s) => s.answerMbx i 0x00 ((w.flatMap fun x => natLe 4 x.toNat).take n))

/-! ## KEY_IMPORT -/

/-- The record of a vault key in host memory, read under its owner's windows (R432, R435). -/
def State.hostRec (s : State) (i slot : Nat) (r : HostRead) : HostRead × State :=
  let k := s.slot slot
  if k.loc != 2 then (r, s)
  else if !s.windowOk i k.addr k.rlen false then (.busError, s.windowMiss i 0)
  else (r, s.raiseRead i 0 r)

/-- ERA advances by one bit of its thermometer, or the advance is due and none remains (R438). -/
def State.advanceEra (s : State) : State :=
  if s.otp.era < 64 then { s with otp := { s.otp with era := s.otp.era + 1 } }
  else { s with bbram := { s.bbram with eraSpent := true } }

/-- Check 2 of R440: magic, version, zero fields and lengths. -/
def importLayoutOk (b : Bytes) : Bool :=
  decide (7484 ≤ b.length) && leAt b 0 4 == 0x31494B41 && leAt b 4 2 == 1 && allZero ((b.drop 49).take 3)
    && allZero ((b.drop 68).take 4) && b.length == 7484 + leAt b 64 4

/-- Both signatures of the key authority on a message verify, and its keys have the digest given (R439, R440, R513). -/
def authorityOk (digest : BitVec 256) (ctx dsa ec msg sigDsa sigEc : Bytes) : Bool :=
  sha3_256 (dsa ++ ec) == digest && Config.mlDsa87Verify dsa ctx msg sigDsa && Config.ecdsaP384Verify ec msg sigEc

/-- Check 3 of R440. -/
def State.importAuthOk (s : State) (b : Bytes) : Bool :=
  let w := leAt b 64 4
  authorityOk s.otp.kaDigest (ascii "AK-IMPORT") ((b.drop (72 + w)).take 2592) ((b.drop (2664 + w)).take 97)
    (b.take (2761 + w)) ((b.drop (2761 + w)).take 4627) ((b.drop (7388 + w)).take 96)

/-- Check 4 of R440, and the refusal of R438 once no ERA remains. -/
def State.importTargetOk (s : State) (i : Nat) (b : Bytes) : Bool :=
  (b.drop 8).take 32 == s.targetId && leAt b 40 4 == s.otp.era && !s.bbram.eraSpent
    && decide (s.bbram.importCtr < leAt b 44 4) && leAt b 48 1 == i

/-- Checks 1 to 6 of R440: the status of the first that fails. -/
def State.importRefusal (s : State) (i : Nat) (b : Bytes) : Option Nat :=
  let t := leAt b 56 4
  let p := leAt b 60 4
  let e := s.slot (hIndex t)
  let attr : W32 := BitVec.ofNat 32 (leAt b 52 4)
  if !importLayoutOk b then some 0x06
  else if !s.importAuthOk b then some 0x06
  else if !s.importTargetOk i b then some 0x06
  else if !s.handleOk i t || !(p == 0 || s.handleOk i p) then some 0x03
  else if !s.chainOk (hIndex t) || !(p == 0 || s.chainOk (hIndex p)) then some 0x04
  else if e.type != 0x02 || !bit32 e.attr uUnwrap || !s.attrOk attr (leAt b 6 1)
      || decide (16 < s.depthUnder (s.parentHandle i p)) then some 0x05
  else none

/-- A refused import: the status, and KT_IMPORT_REFUSED (R440). -/
def State.refuseImport (s : State) (i status : Nat) : State := (s.raiseKt 10 i 0).answerMbx i status []

/-- The key that the transport key unwraps: header as R442 gives it, matching TYPE and SET, and no longer than a record takes
(R427, R440; log entry 117). -/
def unwrapImport (b tk : Bytes) : Option Bytes :=
  (aesUnwrap tk ((b.drop 72).take (leAt b 64 4))).bind fun p =>
    if leAt p 0 1 = leAt b 6 1 ∧ leAt p 1 1 = leAt b 7 1 ∧ 8 + leAt p 2 2 ≤ p.length ∧ leAt p 2 2 ≤ maxKey then some ((p.drop 8).take (leAt p 2 2))
    else none

/-- The entry that an import makes (R439, R441). -/
def State.importEntry (s : State) (i : Nat) (b key : Bytes) (slot : Nat) : KeySlot :=
  let p := s.parentHandle i (leAt b 60 4)
  { dfltSlot slot with
    type := leAt b 6 1, set := leAt b 7 1, owner := i, parent := p, depth := s.depthUnder p
    attr := BitVec.ofNat 32 (leAt b 52 4), klen := key.length }

/-- The import counter takes COUNTER; at its last value it restarts and ERA advances (R438, R441). -/
def State.countImport (s : State) (n : Nat) : State :=
  let s := { s with keys := { s.keys with cntImport := s.keys.cntImport + 1#32 } }
  if n = 0xFFFFFFFF then ({ s with bbram := { s.bbram with importCtr := 0 } }).advanceEra
  else { s with bbram := { s.bbram with importCtr := n } }

/-- KEY_IMPORT (R439 to R441); `record` is the transport key's record where that key lies in host memory. -/
def execKeyImport (inst : BitVec 8) (message record : HostRead) (s : State) : Host.Outcome State Fault Refusal :=
  let i := inst.toNat
  .next (s.mbxRun i 0x04 fun p s =>
    match s.readBuf i (bufAddr p 0) (bufLen p 0) message with
    | (none, s) => s.refuseImport i 0x10
    | (some b, s) => match s.importRefusal i b with
      | some st => s.refuseImport i st
      | none =>
        let t := hIndex (leAt b 56 4)
        let host := s.hostRec i t record
        match host.2.readKey t host.1 with
        | .fail st s => s.refuseImport i st
        | .ok tk s => match unwrapImport b tk with
          | none => s.refuseImport i 0x06
          | some key => match s.entryRoom i key.length with
            | (none, s) => s.refuseImport i 0x0B
            | (some slot, s) => match s.makeEntry slot (s.importEntry i b key slot) key with
              | none => s.refuseImport i 0x07
              | some s => (s.countImport (leAt b 44 4)).answerMbx i 0x00 (natLe 4 (s.handleOf slot)))

end Sys2Proof.Machine
end

