-- ==== Sys2Proof/Machine/Digest.lean ====
section
/-!
DEFINITION. The digest engine's commands and events (R477 to R491).
-/
namespace Sys2Proof.Machine

/-- The page of a context (R492). -/
def dgePage (k : Nat) : Nat := 0x780000 + 0x100 * k

/-- A 64-bit field of a context's page. -/
def State.cx64 (s : State) (k o : Nat) : Nat := (s.reg (dgePage k + o)).toNat + (s.reg (dgePage k + o + 4)).toNat * 2 ^ 32

/-- The key of a context. -/
def ctxKeyOf (i c : Nat) : Nat := 8 * i + c

/-! ## Commands -/

/-- OPEN under the table of R478: the status, and the state after it. -/
def State.openCtx (s : State) (k alg declen : Nat) : Nat × State :=
  let c := s.ctx k
  if !(c.st == .free || c.st == .done) then (0x05, s)
  else if (digestBlock alg).isNone || decide (digestMax alg < declen) then (0x01, s)
  else if !s.saveEn then (0x0B, s)
  else (0x00, s.setCtx k { DgeCtx.reset with st := .opened, alg := alg, declen := declen, saves := c.saves })

/-- A job is queued on an OPEN context: the status, and the state after it (R478, R486). -/
def State.queueJob (s : State) (k : Nat) (j : DgeJob) : Nat × State :=
  let c := s.ctx k
  if c.st != .opened then (0x05, s)
  else if decide (0x10000000 < j.len) || decide (8 < j.last.length) ||
      (j.finish && (if isShake c.alg then decide (j.outLen < 1) || decide (4096 < j.outLen) else j.outLen != 0)) then (0x01, s)
  else (0x00, (s.setCtx k { c with st := .run, job := some j }).joinJob k)

/-- CLOSE: an OPEN or DONE context becomes FREE (R478). -/
def State.closeCtx (s : State) (k : Nat) : Nat × State :=
  let c := s.ctx k
  if c.st == .opened || c.st == .done then (0x00, s.clearCtx k 0) else (0x05, s)

/-- The Supervisor carries a mailbox command out through the context's page, whose registers keep what it wrote: pairs of page
offset and value (R489; log entry 78). -/
def State.setPage (s : State) (k : Nat) (l : List (Nat × Nat)) : State :=
  l.foldl (fun s p => s.setReg (dgePage k + p.1) (BitVec.ofNat 32 p.2)) s

/-- The low and the high word of a 64-bit value at a page offset. -/
def page64 (o x : Nat) : List (Nat × Nat) := [(o, x % 2 ^ 32), (o + 4, x / 2 ^ 32)]

/-- A mailbox command stores its status in RESULT, but for one that the table does not list (R478, R489, R493; log entry 78). -/
def State.mbxResult (k : Nat) (r : Nat × State) : State :=
  if r.1 = 0x05 then r.2 else r.2.setCtx k { r.2.ctx k with result := r.1 }

/-- A mailbox command that ends at once answers its status. -/
def State.answerNow (i k : Nat) (r : Nat × State) : State := (State.mbxResult k r).answerMbx i r.1 []

/-- A mailbox command that starts a job is served until the job ends; a refused one answers now. -/
def State.answerStart (i k : Nat) (s : State) (f : State → Nat × State) : State :=
  let r := f (s.takeMbx i)
  if r.1 = 0 then State.mbxResult k r else State.answerNow i k (f s)

/-- Fields that are not listed are 0, and the context is one of the instance's eight (R489). -/
def ctxByteOk (p : Bytes) : Bool := decide (leAt p 0 1 < 8)

/-- DIGEST_OPEN (R489). -/
def execDigestOpen (inst : BitVec 8) (s : State) : Host.Outcome State Fault Refusal :=
  let i := inst.toNat
  .next (s.mbxRun i 0x28 fun p s =>
    let k := ctxKeyOf i (leAt p 0 1)
    if !ctxByteOk p || !allZero ((p.drop 2).take 2) then s.answerMbx i 0x01 []
    else
      let s := if (s.ctx k).st == .free || (s.ctx k).st == .done then s.setPage k (page64 0x08 (leAt p 4 8)) else s
      State.answerNow i k (s.openCtx k (leAt p 1 1) (leAt p 4 8)))

/-- DIGEST_UPDATE (R479, R489). -/
def execDigestUpdate (inst : BitVec 8) (s : State) : Host.Outcome State Fault Refusal :=
  let i := inst.toNat
  .next (s.mbxRun i 0x29 fun p s =>
    let k := ctxKeyOf i (leAt p 0 1)
    if !ctxByteOk p || !allZero ((p.drop 1).take 3) then s.answerMbx i 0x01 []
    else
      let s := if (s.ctx k).st == .opened then s.setPage k (page64 0x10 (bufAddr p 4) ++ [(0x18, bufLen p 4)]) else s
      State.answerStart i k s fun s => s.queueJob k
        { finish := false, viaMbx := true, addr := bufAddr p 4, len := bufLen p 4, last := [], cmp := false, expect := []
          outLen := 0, outAddr := 0, pos := 0 })

/-- The bytes of a final buffer that go through the last-word register (R489). -/
def lastBytes (len : Nat) : Nat := if len = 0 then 0 else (len - 1) % 8 + 1

/-- What the page of a context holds for a DIGEST_FINAL: the buffer, the last word, the controls, the output buffer and the
expected value (R489, R492). -/
def finalPage (p b : Bytes) : List (Nat × Nat) :=
  page64 0x10 (bufAddr p 4) ++ [(0x18, bufLen p 4 - b.length)] ++ page64 0x28 (leNat b)
    ++ [(0x30, leAt p 1 1 * 2 ^ 31 + leAt p 2 2 % 2 ^ 13 * 2 ^ 16 + b.length)] ++ page64 0x34 (bufAddr p 16)
    ++ (List.range 16).map fun n => (0x40 + 4 * n, leAt p (28 + 4 * n) 4)

/-- DIGEST_FINAL (R481, R489); `last` is what the Supervisor reads of the last bytes of the final buffer. -/
def execDigestFinal (inst : BitVec 8) (last : HostRead) (s : State) : Host.Outcome State Fault Refusal :=
  let i := inst.toNat
  .next (s.mbxRun i 0x2A fun p s =>
    let k := ctxKeyOf i (leAt p 0 1)
    let outLen := leAt p 2 2
    let long := isShake (s.ctx k).alg && decide (64 < outLen)
    if !ctxByteOk p || decide (1 < leAt p 1 1) || (!long && !allZero ((p.drop 16).take 12)) then s.answerMbx i 0x01 []
    else if long && decide (bufLen p 16 < outLen) then s.answerMbx i 0x0A (natLe 4 outLen)
    else
      let len := bufLen p 4
      let v := lastBytes len
      match s.readBuf i (bufAddr p 4 + len - v) v last with
      | (none, s) => s.answerMbx i 0x10 []
      | (some b, s) =>
        let s := if (s.ctx k).st == .opened then s.setPage k (finalPage p b) else s
        State.answerStart i k s fun s => s.queueJob k
          { finish := true, viaMbx := true, addr := bufAddr p 4, len := len - v, last := b, cmp := leAt p 1 1 == 1
            expect := (p.drop 28).take 64, outLen := outLen, outAddr := bufAddr p 16, pos := 0 })

/-- DIGEST_CLOSE (R489). -/
def execDigestClose (inst : BitVec 8) (s : State) : Host.Outcome State Fault Refusal :=
  let i := inst.toNat
  .next (s.mbxRun i 0x2B fun p s =>
    let k := ctxKeyOf i (leAt p 0 1)
    if !ctxByteOk p then s.answerMbx i 0x01 [] else State.answerNow i k (s.closeCtx k))

/-- A register command stores its status in RESULT; one the table does not list raises DGE_REG_ACCESS (R478). -/
def State.cxResult (k : Nat) (r : Nat × State) : State :=
  let s := r.2.setCtx k { r.2.ctx k with result := r.1 }
  if r.1 = 0x05 then s.raiseDge 5 0 k 0 else s

/-- DGE_CX_CMD OPEN (R478). -/
def State.cxOpen (s : State) (k alg : Nat) : State := State.cxResult k (s.openCtx k alg (s.cx64 k 0x08))
def execDgeCxOpen (inst : BitVec 8) (ctx : BitVec 3) (alg : BitVec 4) (s : State) : Host.Outcome State Fault Refusal :=
  .next (s.pfWrite fun s => s.cxOpen (ctxKeyOf inst.toNat ctx.toNat) alg.toNat)

/-- The bytes of the last-word register, and the expected value (R481, R483). -/
def State.cxLast (s : State) (k : Nat) : Bytes :=
  (natLe 8 (s.cx64 k 0x28)).take (fld (s.reg (dgePage k + 0x30)) 0 4)
    ++ List.replicate (fld (s.reg (dgePage k + 0x30)) 0 4 - 8) 0#8
def State.cxExpect (s : State) (k : Nat) : Bytes := (List.range 16).flatMap fun n => natLe 4 (s.reg (dgePage k + 0x40 + 4 * n)).toNat

/-- The job that a register command names. -/
def State.cxJob (s : State) (k : Nat) (finish : Bool) : DgeJob :=
  let ctl := s.reg (dgePage k + 0x30)
  { finish := finish, viaMbx := false, addr := s.cx64 k 0x10, len := (s.reg (dgePage k + 0x18)).toNat
    last := if finish then s.cxLast k else [], cmp := finish && bit32 ctl 31, expect := s.cxExpect k
    outLen := if finish then fld ctl 16 13 else 0, outAddr := s.cx64 k 0x34, pos := 0 }

/-- DGE_CX_CMD UPDATE and FINISH (R479, R481). -/
def State.cxStart (s : State) (k : Nat) (finish : Bool) : State := State.cxResult k (s.queueJob k (s.cxJob k finish))

/-- DGE_CX_CMD UPDATE (R479). -/
def execDgeCxUpdate (inst : BitVec 8) (ctx : BitVec 3) (s : State) : Host.Outcome State Fault Refusal :=
  .next (s.pfWrite fun s => s.cxStart (ctxKeyOf inst.toNat ctx.toNat) false)

/-- DGE_CX_CMD FINISH (R481). -/
def execDgeCxFinish (inst : BitVec 8) (ctx : BitVec 3) (s : State) : Host.Outcome State Fault Refusal :=
  .next (s.pfWrite fun s => s.cxStart (ctxKeyOf inst.toNat ctx.toNat) true)

/-- DGE_CX_CMD CLOSE (R478). -/
def State.cxClose (s : State) (k : Nat) : State := State.cxResult k (s.closeCtx k)
def execDgeCxClose (inst : BitVec 8) (ctx : BitVec 3) (s : State) : Host.Outcome State Fault Refusal :=
  .next (s.pfWrite fun s => s.cxClose (ctxKeyOf inst.toNat ctx.toNat))

/-! ## Jobs -/

/-- A context absorbs bytes: RCVD counts all, the message takes those up to DECLEN, TRUNC marks the rest (R479, R480). -/
def DgeCtx.absorb (c : DgeCtx) (b : Bytes) : DgeCtx :=
  let n := c.rcvd + b.length
  { c with rcvd := n, msg := c.msg ++ b.take (c.declen - c.rcvd), trunc := c.trunc || decide (c.declen < n) }

/-- Blocks that a message of `n` bytes fills, and blocks of the whole padded message (R477). -/
def wholeBlocks (alg n : Nat) : Nat := n / (digestBlock alg).getD 64
def paddedBlocks (alg n : Nat) : Nat :=
  let b := (digestBlock alg).getD 64
  if alg ≤ 2 then (n + 8) / b + 1 else if alg ≤ 5 then (n + 16) / b + 1 else n / b + 1

/-- Counts processed blocks. -/
def State.countBlocks (s : State) (n : Nat) : State :=
  { s with dge := { s.dge with cntBlocks := s.dge.cntBlocks + BitVec.ofNat 32 n } }

/-- The output of a FINISH: 64 bytes at most in the registers (R482). -/
def DgeCtx.output (c : DgeCtx) (j : DgeJob) : Bytes :=
  let n := if isShake c.alg then j.outLen else digestOut c.alg
  padTo n (digestOf c.alg c.msg n)

/-- The result pair of a compare: 0 agree, 2 only the first finds equality, 3 only the second (R483). -/
def comparePair (equal : Bool) (fault : Nat) : Nat × Nat :=
  if fault = 2 then (0xA5, 0xC3) else if fault = 3 then (0x3C, 0x5A)
  else if equal then (0xA5, 0x5A) else (0x3C, 0xC3)

/-- The answer of a DIGEST_FINAL (R489). -/
def finalAnswer (c : DgeCtx) : Bytes :=
  natLe 1 c.isMatch.toNat ++ natLe 1 c.matchN.toNat ++ natLe 1 (b2n c.trunc) ++ natLe 1 0 ++ natLe 8 c.rcvd ++ padTo 64 c.out

/-- The message blocks already counted when the rest of a job begins. -/
def DgeCtx.counted (c : DgeCtx) (j : DgeJob) : Nat :=
  wholeBlocks c.alg (min (c.rcvd - (j.len - j.pos) - j.last.length) c.declen)

/-- A FINISH ends: output and compare result, or LENGTH_MISMATCH (R478, R480 to R483); `was` is TRUNC before it. -/
def State.finishEnd (s : State) (u k : Nat) (j : DgeJob) (was : Bool) (fault : Nat) : State :=
  let c := s.ctx k
  if c.rcvd < c.declen then
    (((s.countBlocks (wholeBlocks c.alg c.rcvd - c.counted j)).raiseDge 4 u k 0)).failJob k 0x0A
  else
    let s := s.countBlocks (paddedBlocks c.alg c.declen - c.counted j)
    let full := c.output j
    let n := min full.length 64
    let long := decide (64 < full.length)
    if long && !s.windowOk (k / 8) j.outAddr full.length true then
      (((s.windowMiss (k / 8) 0).raiseDge 1 u k j.outAddr)).failJob k 0x10
    else
      let s := if long then s.hostWrite j.outAddr full else s
      let equal := full.take n == j.expect.take n
      let pair := if j.cmp then comparePair equal fault else (0, 0)
      let bad := j.cmp && (fault == 2 || fault == 3)
      let s := if j.cmp && !bad && !equal then { s with dge := { s.dge with cntMismatch := s.dge.cntMismatch + 1#32 } } else s
      let s := if bad then s.raiseDge 3 u k 0 else s
      let s := if c.trunc && !was then s.raiseDge 4 u k 0 else s
      let st := if bad then 0x09 else 0x00
      let c' := { c with st := .done, result := st, out := full.take 64, isMatch := BitVec.ofNat 8 pair.1
                         matchN := BitVec.ofNat 8 pair.2, msg := [] }
      let s := s.setCtx k c'
      let s := s.answerJob k st (if st = 0 then finalAnswer c' else [])
      s.setCtx k { c' with job := none }

/-- An UPDATE ends: the context is saved and OPEN again (R478, R487). -/
def State.updateEnd (s : State) (u k : Nat) (j : DgeJob) (was : Bool) : State :=
  let c := s.ctx k
  let s := s.countBlocks (wholeBlocks c.alg (min c.rcvd c.declen) - c.counted j)
  let s := if c.trunc && !was then s.raiseDge 4 u k 0 else s
  let s := s.answerJob k 0x00 (natLe 8 c.rcvd ++ natLe 1 (b2n c.trunc))
  (s.setCtx k { c with st := .opened, result := 0, job := none }).saveCtx k

/-- The job of a unit ends (R478 to R483). `data` is what the rest of its buffer brings; `fault` is 1 for a parity error
in the unit (R494), 2 or 3 where the two comparators disagree (R483). The unit takes the head of the wait list. -/
def execDigestJobEnd (unit : BitVec 4) (data : HostRead) (fault : BitVec 2) (s : State) : Host.Outcome State Fault Refusal :=
  let u := unit.toNat
  .next (match s.dge.units.find? fun p => p.1 == u with
  | none => s
  | some (_, k) => match (s.ctx k).job with
    | none => s
    | some j =>
      let s := s.dropUnit u
      let rest := j.len - j.pos
      let missed := !s.windowOk (k / 8) (j.addr + j.pos) rest false
      let s := if missed then s.windowMiss (k / 8) 0 else s
      let read : Option Bytes := if missed then none else match data with | .ok b => some (padTo rest b) | _ => none
      let s := if fault = 1#2 then (s.raiseDge 0 u k 0).failJob k 0x09
        else match read with
          | none => (s.raiseDge 1 u k (j.addr + j.pos)).failJob k 0x10
          | some b =>
            let was := (s.ctx k).trunc
            let s := s.setCtx k ((s.ctx k).absorb (b ++ j.last))
            if j.finish then s.finishEnd u k j was fault.toNat else s.updateEnd u k j was
      s.fillUnits s.dge.wait.length)

/-- A unit switches at a block boundary: `data` are the bytes it read since it took the job (R486, R487). -/
def execDigestSwitch (unit : BitVec 4) (data : Bytes) (s : State) : Host.Outcome State Fault Refusal :=
  let u := unit.toNat
  .next (match s.dge.units.find? fun p => p.1 == u with
  | none => s
  | some (_, k) => match (s.ctx k).job with
    | none => s
    | some j =>
      let c := s.ctx k
      let block := (digestBlock c.alg).getD 64
      let quantum := fld (s.reg 0x700004) 0 16
      let c' := { c.absorb data with job := some { j with pos := j.pos + data.length } }
      if s.dge.wait.isEmpty || decide (j.len < j.pos + data.length) || c'.rcvd % block != 0
          || !(s.dge.due == some u || decide (quantum * block ≤ data.length))
          || !s.windowOk (k / 8) (j.addr + j.pos) data.length false then s
      else
        let s := s.countBlocks (wholeBlocks c.alg (min c'.rcvd c.declen) - wholeBlocks c.alg (min c.rcvd c.declen))
        let s := if c'.trunc && !c.trunc then s.raiseDge 4 u k 0 else s
        let s := ((s.setCtx k c').saveCtx k).dropUnit u
        let d := { s.dge with cntSwitch := s.dge.cntSwitch + 1#32, wait := s.dge.wait ++ [k] }
        State.fillUnits { s with dge := d } d.wait.length)

/-! ## The save region -/

/-- Two regions overlap. -/
def overlaps (a n b m : Nat) : Bool := decide (a < b + m) && decide (b < a + n) && n != 0 && m != 0

/-- A write of SAVE_EN or of the base is refused (R485). -/
def State.saveRefused (s : State) (base : Nat) : Bool :=
  (s.dge.ctxs.any fun e => e.2.st != .free) || (s.vaultEn && overlaps base 0x100000 s.vaultBase (1024 * s.vaultSize))

/-- A write of DGE_CTRL, or of DGE_SAVE_BASE_LO or _HI (R485, R493). -/
def execSaveEnWrite (reg : BitVec 2) (value : BitVec 32) (s : State) : Host.Outcome State Fault Refusal :=
  .next (s.pfWrite fun s =>
    let lo := s.reg 0x700010
    let hi := s.reg 0x700014
    if reg = 0#2 then
      let old := s.reg 0x700004
      let q := max 1 (fld value 0 16)
      let s := s.setReg 0x700004 ((old &&& 0x80000000#32) ||| at32 q 0)
      if bit32 value 31 = bit32 old 31 then s
      else if s.saveRefused (lo.toNat + hi.toNat * 2 ^ 32) then s.raiseDge 5 0 0 0
      else s.setReg 0x700004 (setFld (s.reg 0x700004) 31 1 (b2n (bit32 value 31)))
    else
      let a := if reg = 1#2 then 0x700010 else 0x700014
      let v := if reg = 1#2 then value &&& 0xFFF00000#32 else value
      let base := if reg = 1#2 then v.toNat + hi.toNat * 2 ^ 32 else lo.toNat + v.toNat * 2 ^ 32
      if v = s.reg a then s else if s.saveRefused base then s.raiseDge 5 0 0 0 else s.setReg a v)

end Sys2Proof.Machine
end

