-- ==== Sys2Proof/Machine/Dma.lean ====
section
/-!
DEFINITION. The DMA channels (R495 to R507).
-/
namespace Sys2Proof.Machine

/-- What an unlisted channel reads as. -/
def dfltCh : Nat → DmaCh := fun _ => DmaCh.reset
def State.ch (s : State) (n : Nat) : DmaCh := mget dfltCh s.dma.chans n
def State.setCh (s : State) (n : Nat) (c : DmaCh) : State := { s with dma := { s.dma with chans := mset dfltCh s.dma.chans n c } }

/-- The page of a channel (R505), and its configuration (R506). -/
def dmaPage (n : Nat) : Nat := 0x801000 + 0x40 * n
def State.dmaCtrl (s : State) (n : Nat) : W32 := s.reg (dmaPage n)
def State.dmaSrc (s : State) (n : Nat) : Nat := (s.reg (dmaPage n + 0x04)).toNat + (s.reg (dmaPage n + 0x08)).toNat * 2 ^ 32
def State.dmaDst (s : State) (n : Nat) : Nat := (s.reg (dmaPage n + 0x0C)).toNat + (s.reg (dmaPage n + 0x10)).toNat * 2 ^ 32
def State.dmaLen (s : State) (n : Nat) : Nat := (s.reg (dmaPage n + 0x14)).toNat

/-- Fields of DMA_CH_CTRL (R506). -/
def dmaSspace (w : W32) : Nat := fld w 26 2
def dmaDspace (w : W32) : Nat := fld w 24 2
def dmaInst (w : W32) : Nat := fld w 16 8
def dmaStride (w : W32) : Nat := fld w 8 4
def dmaXform (w : W32) : Nat := fld w 3 3

/-- The configuration fields of DMA_CH_CTRL, all but GO, PAUSE and ABORT. -/
abbrev dmaCfgMask : W32 := 0x0FFF0FFE#32

/-- The channel moves data: RUN, PAUSING or PAUSED. -/
def DmaCh.active (c : DmaCh) : Bool := c.st == .run || c.st == .pausing || c.st == .paused

/-- The DMA syndrome details (R506). -/
def State.raiseDma (s : State) (b n addr : Nat) : State := s.raise blkDma b (at32 n 0) (BitVec.ofNat 32 addr)

/-! ## Configuration (R497) -/

/-- A range of a space stays inside its CSM or its H0 half. -/
def spaceFits (space a len : Nat) : Bool :=
  match space with
  | 2 => decide (a % 0x200000 + len ≤ 0x200000)
  | 3 => decide (a % 0x4000 + len ≤ 0x4000)
  | _ => true

/-- The checks of R497 at GO. -/
def State.dmaCfgOk (s : State) (n : Nat) : Bool :=
  let w := s.dmaCtrl n
  let len := s.dmaLen n
  let k := dmaStride w
  s.dmaSrc n % 64 == 0 && s.dmaDst n % 64 == 0 && len % 64 == 0 && decide (64 ≤ len)
    && (match dmaXform w with
      | 0 => k == 0
      | 1 => k == 0 && len % 512 == 0
      | 2 => decide (2 ≤ k) && decide (k ≤ 8) && len % (64 * k) == 0
      | 3 => decide (2 ≤ k) && decide (k ≤ 8) && len % (64 * k) == 0
      | _ => false)
    && spaceFits (dmaSspace w) (s.dmaSrc n) len && spaceFits (dmaDspace w) (s.dmaDst n) len

/-- GO on a channel that is not active (R500): the configuration of the same write is stored, checked, and the channel runs. -/
def State.dmaGo (s : State) (n : Nat) (ctrl : W32) : State :=
  let c := s.ch n
  let s := s.setReg (dmaPage n) (ctrl &&& dmaCfgMask)
  let pause := bit32 ctrl 30
  if s.dmaCfgOk n then
    s.setCh n { c with st := if pause then .pausing else .run, prog := 0, cause := 0, dir := false, pause := pause }
  else (s.setCh n { c with st := .idle, cause := 8, pause := pause }).raiseDma 8 n 0

/-- PAUSE ← 1 and PAUSE ← 0 (R500, R501). -/
def State.dmaPause (s : State) (n : Nat) (on : Bool) : State :=
  let c := s.ch n
  s.setCh n { c with pause := on, st := if on then (if c.st = .run then .pausing else c.st)
                                        else if c.st = .pausing ∨ c.st = .paused then .run else c.st }

/-- ABORT (R500). -/
def State.dmaAbort (s : State) (n : Nat) : State :=
  let c := s.ch n
  if c.active then s.setCh n { c with st := .idle } else s

/-- A write of DMA_CH_CTRL: GO starts a channel that is not active; PAUSE and ABORT act on an active one, whose other fields
stay (R500, R503, R663). After DMA_CTL_PARITY no channel accepts GO (R507). -/
def State.chCtrlWrite (s : State) (n : Nat) (w : W32) : State :=
  let c := s.ch n
  let old := s.dmaCtrl n
  if !c.active && bit32 w 31 && !s.dma.dead then s.dmaGo n w
  else
    let s := if c.active then (if bit32 w 31 || w &&& dmaCfgMask != old then s.raiseDma 12 n 0 else s)
      else
        let s := s.setReg (dmaPage n) (w &&& dmaCfgMask)
        if bit32 w 31 then s.raiseDma 12 n 0 else s
    let s := if bit32 w 30 = c.pause then s else s.dmaPause n (bit32 w 30)
    if bit32 w 29 then s.dmaAbort n else s

/-- A write of DMA_CH_CTRL with GO (R500, R503). -/
def execDmaGo (chan : BitVec 4) (ctrl : BitVec 32) (s : State) : Host.Outcome State Fault Refusal :=
  .next (s.pfWrite fun s => s.chCtrlWrite chan.toNat (ctrl ||| 0x80000000#32))

/-- A write that sets PAUSE (R500). -/
def execDmaPauseSet (chan : BitVec 4) (s : State) : Host.Outcome State Fault Refusal :=
  .next (s.pfWrite fun s => s.dmaPause chan.toNat true)

/-- A write that clears PAUSE (R500, R501). -/
def execDmaPauseClear (chan : BitVec 4) (s : State) : Host.Outcome State Fault Refusal :=
  .next (s.pfWrite fun s => s.dmaPause chan.toNat false)

/-- A write with ABORT (R500). -/
def execDmaAbort (chan : BitVec 4) (s : State) : Host.Outcome State Fault Refusal :=
  .next (s.pfWrite fun s => s.dmaAbort chan.toNat)

/-! ## Reach (R496) -/

/-- An access of `len` bytes at `a` of a space is refused: the CAUSE and the source it raises. -/
def State.dmaRefused (s : State) (w : W32) (space a len : Nat) (write : Bool) : Option (Nat × Nat) :=
  match space with
  | 0 => if s.windowOk (dmaInst w) a len write then none else some (2, 3)
  | 1 =>
    if decide (s.dramSize < a + len) || (s.vaultEn && overlaps a len s.vaultBase (1024 * s.vaultSize))
        || (s.saveEn && overlaps a len (s.saveAddr 0) 0x100000) then some (4, 5) else none
  | 2 =>
    let c := a / 0x200000 % 16
    if (s.cl c).oos && s.running c == 0 then none else some (4, 5)
  | _ => if (s.mau (a / 0x4000 % 32)).direct then none else some (6, 7)

/-- A refused access: the bytes done before it, the CAUSE and the source it raises, its direction and address. -/
structure DmaStop where
  done : Nat
  cause : Nat
  source : Nat
  write : Bool
  addr : Nat
deriving DecidableEq, Repr

/-- The 64-byte pieces of the source, by offset, that the 64 bytes of output line `l` are made of (R498, R501). -/
def dmaPieces (w : W32) (len l : Nat) : List Nat :=
  let k := dmaStride w
  match dmaXform w with
  | 1 => (List.range 8).map fun i => 512 * (l / 8) + 64 * i
  | 2 => (List.range k).map fun p => p * (len / k) + 64 * (l / k)
  | 3 => (List.range k).map fun i => 64 * (l % (len / (64 * k)) * k + i)
  | _ => [64 * l]

/-- The first access that is refused for output line `l`: its reads, then its write. -/
def State.dmaLineStop (s : State) (n l : Nat) : Option DmaStop :=
  let w := s.dmaCtrl n
  let stop (write : Bool) (space a : Nat) : Option DmaStop :=
    (s.dmaRefused w space a 64 write).map fun r => ⟨64 * l, r.1, r.2, write, a⟩
  match (dmaPieces w (s.dmaLen n) l).findSome? fun o => stop false (dmaSspace w) (s.dmaSrc n + o) with
  | some r => some r
  | none => stop true (dmaDspace w) (s.dmaDst n + 64 * l)

/-- The first refusal on the way from PROG to `upTo` bytes of a transfer. -/
def State.dmaBlocked (s : State) (n upTo : Nat) : Option DmaStop :=
  let from_ := (s.ch n).prog / 64
  (List.range ((upTo + 63) / 64 - from_)).findSome? fun j => s.dmaLineStop n (from_ + j)

/-! ## Data (R498) -/

/-- One byte of the source; `data` is what host memory holds there. -/
def State.dmaRead (s : State) (w : W32) (src : Nat) (data : Bytes) (j : Nat) : Byte :=
  match dmaSspace w with
  | 0 => data.getD j 0#8
  | 1 => rdByte s.dram (src + j)
  | 2 => rdByte (s.cl (src / 0x200000 % 16)).commitAll.csm (src % 0x200000 + j)
  | _ => ((s.mau (src / 0x4000 % 32)).half0.rd (src % 0x4000 + j) 1).getD 0 0#8

/-- Bytes of an element (R498, R111). -/
def dmaElem (w : W32) : Nat := 2 ^ fld w 1 2

/-- Byte `j` of the output of the transform, before SWAP (R498). -/
def dmaXformByte (w : W32) (len : Nat) (rd : Nat → Byte) (j : Nat) : Byte :=
  let e := dmaElem w
  let k := dmaStride w
  let n := len / k / e
  match dmaXform w with
  | 1 =>
    let y := j % 512 / 8
    (List.range 8).foldl (fun b i =>
      let x := rd (512 * (j / 512) + 8 * (8 * (j % 8) + i) + y / 8)
      b ||| BitVec.ofNat 8 (b2n (x.getLsbD (y % 8)) * 2 ^ i)) 0#8
  | 2 => rd (e * (j / e % k * n + j / e / k) + j % e)
  | 3 => rd (e * (j / e % n * k + j / e / n) + j % e)
  | _ => rd j

/-- Byte `j` of the output (R498). -/
def dmaOutByte (w : W32) (len : Nat) (rd : Nat → Byte) (j : Nat) : Byte :=
  let g := 2 ^ fld w 6 2
  dmaXformByte w len rd (g * (j / g) + (g - 1 - j % g))

/-- The destination bytes from PROG up to `upTo` land (R499); nothing is written to host memory for an instance in a Function
Level Reset (R386). -/
def State.dmaMove (s : State) (n upTo : Nat) (data : Bytes) : State :=
  let w := s.dmaCtrl n
  let src := s.dmaSrc n
  let from_ := (s.ch n).prog
  let rd := s.dmaRead w src data
  let out := (List.range (upTo - from_)).map fun j => dmaOutByte w (s.dmaLen n) rd (from_ + j)
  let a := s.dmaDst n + from_
  match dmaDspace w with
  | 0 => if (s.inst (dmaInst w)).st == .inFlr then s else s.hostWrite a out
  | 1 => { s with dram := wrBytes s.dram a out }
  | 2 =>
    let c := a / 0x200000 % 16
    let k := (s.cl c).commitAll
    let o := a % 0x200000
    s.setCl c { k with csm := wrBytes k.csm o out, csmBad := k.csmBad.filter fun x => decide (x < o) || decide (o + out.length ≤ x) }
  | _ =>
    let u := a / 0x4000 % 32
    let m := s.mau u
    s.setMau u { m with half0 := m.half0.wr (a % 0x4000) out }

/-- A channel halts (R502). -/
def State.dmaHalt (s : State) (n cause b : Nat) (dir : Bool) (addr : Nat) : State :=
  let s := s.setCh n { s.ch n with st := .halted, cause := cause, dir := dir, err := addr }
  State.raiseDma { s with dma := { s.dma with cntHalt := s.dma.cntHalt + 1#32 } } b n addr

/-- What was written before the error lands, and PROG counts it (R499, R502). -/
def State.dmaAdvance (s : State) (n p : Nat) (data : Bytes) : State :=
  let s := s.dmaMove n p data
  s.setCh n { s.ch n with prog := p }

/-- A refused access halts the channel after the bytes done before it (R502): a host window miss is counted and reported (R31),
and a unit not in direct mode raises MAU_ACCESS (R293, R329). The DMA belongs to no queue (log entry 112). -/
def State.dmaRefuse (s : State) (n : Nat) (r : DmaStop) (data : Bytes) : State :=
  let s := (s.dmaAdvance n (max (s.ch n).prog r.done) data).dmaHalt n r.cause r.source r.write r.addr
  if r.cause = 2 then s.windowMiss (dmaInst (s.dmaCtrl n)) 0
  else if r.cause = 6 then s.mauAccess (r.addr / 0x4000 % 32)
  else s

/-- Whole transform units (R501). -/
def dmaUnit (w : W32) : Nat := match dmaXform w with | 1 => 512 | 2 => 64 * dmaStride w | 3 => 64 * dmaStride w | _ => 64

/-- The data already read is written and the channel is PAUSED at `prog` bytes (R500, R501). -/
def execDmaPaused (chan : BitVec 4) (prog : BitVec 32) (data : Bytes) (s : State) : Host.Outcome State Fault Refusal :=
  let n := chan.toNat
  let c := s.ch n
  let p := prog.toNat
  .next (if c.st != .pausing || decide (p < c.prog) || decide (s.dmaLen n ≤ p) || p % dmaUnit (s.dmaCtrl n) != 0 then s
  else match s.dmaBlocked n p with
    | some r => s.dmaRefuse n r data
    | none => ((s.dmaMove n p data).setCh n { c with st := .paused, prog := p }).raiseDma 10 n 0)

/-- The last write is done (R499, R500, R504). -/
def execDmaDone (chan : BitVec 4) (data : Bytes) (s : State) : Host.Outcome State Fault Refusal :=
  let n := chan.toNat
  let c := s.ch n
  .next (if !(c.st == .run || c.st == .pausing) then s
  else match s.dmaBlocked n (s.dmaLen n) with
    | some r => s.dmaRefuse n r data
    | none =>
      let s := (s.dmaMove n (s.dmaLen n) data).setCh n { c with st := .done, prog := s.dmaLen n }
      State.raiseDma { s with dma := { s.dma with cntDone := s.dma.cntDone + 1#32 } } 9 n 0)

/-- The CAUSE that goes with an error source; none for a source that is no error (R502, R506, R507). -/
def dmaCause (b : Nat) : Option Nat :=
  match b with
  | 0 => some 4 | 1 => some 4 | 2 => some 1 | 3 => some 2 | 4 => some 3 | 5 => some 4 | 6 => some 5 | 7 => some 6
  | 13 => some 1 | 14 => some 1 | 15 => some 4 | _ => none

/-- The events of other units that go with an error source: a miss of the windows (R31), a CSM write discarded under R67, a unit
not in direct mode (R293), a parity error of DRAM (R580). -/
def State.dmaAlso (s : State) (n b addr ch lane : Nat) : State :=
  match b with
  | 3 => s.windowMiss (dmaInst (s.dmaCtrl n)) 0
  | 4 => s.raiseMemParity ch lane addr
  | 6 => s.raise (addr / 0x200000 % 16) 18 0#32 0#32
  | 7 => s.mauAccess (addr / 0x4000 % 32)
  | _ => s

/-- A read or write error after `prog` bytes halts the channel (R502); DMA_CTL_PARITY halts all 16 (R507). `source` is the bit
raised; `memCh` and `lane` name the DRAM channel and lane of a parity error. A refusal met on the way to `prog` halts it first. -/
def execDmaErrorHalt (chan source : BitVec 4) (write : Bool) (prog : BitVec 32) (addr : BitVec 64) (data : Bytes)
    (memCh : Bool) (lane : BitVec 4) (s : State) : Host.Outcome State Fault Refusal :=
  let n := chan.toNat
  let c := s.ch n
  let b := source.toNat
  let p := prog.toNat
  .next (match dmaCause b with
  | none => s
  | some cause =>
    if !(c.st == .run || c.st == .pausing) || decide (p < c.prog) || decide (s.dmaLen n < p) then s
    else match s.dmaBlocked n p with
    | some r => s.dmaRefuse n r data
    | none =>
      let s := s.dmaAdvance n p data
      let s := s.dmaAlso n b addr.toNat (b2n memCh) lane.toNat
      if b = 15 then
        let others := (List.range 16).filter fun m => m != n
        let s := others.foldl (fun s m => s.setCh m { s.ch m with st := .halted, cause := 4 }) s
        let d := { s.dma with dead := true, cntHalt := s.dma.cntHalt + BitVec.ofNat 32 others.length }
        State.dmaHalt { s with dma := d } n cause b write addr.toNat
      else s.dmaHalt n cause b write addr.toNat)

/-- A TMP response halts every active channel with CAUSE ALARM (R500, R504). -/
def State.dmaAlarm (s : State) : State :=
  ((List.range 16).filter fun n => (s.ch n).active).foldl (fun s n => s.dmaHalt n 7 11 (s.ch n).dir (s.ch n).err) s

end Sys2Proof.Machine
end

