-- ==== Sys2Proof/Machine/Entropy.lean ====
section
/-!
DEFINITION. The entropy subsystem's events (R451 to R473). Noise itself comes from outside: what a block holds, and
whether a test fails, are operands.
-/
namespace Sys2Proof.Machine

/-- The ENT syndrome details (R475). -/
def State.raiseEnt (s : State) (b test unit detail : Nat) : State :=
  s.raise blkEnt b (at32 test 5 ||| at32 unit 0) (at32 detail 0)

/-! ## Credit (R451, R455, R456, R459) -/

/-- The cap of 192 bits from one source, and the 384 bits of a block, in units of 1/125 sample. -/
abbrev srcCap : Nat := 120000
abbrev blockCredit : Nat := 240000

/-- The credit of a source after a number of beats. -/
def State.creditAfter (s : State) (n beats : Nat) : Nat :=
  if s.passes n && !s.alarm then min srcCap ((s.src n).credit + 32 * beats) else (s.src n).credit

/-- The credit of `n` sources brought up to now. -/
def State.settleSrc (s : State) (beats : Nat) : Nat → State
  | 0 => s
  | n + 1 => let s := s.settleSrc beats n
             s.setSrc n { s.src n with credit := s.creditAfter n beats }

/-- Credit is counted up to now; called before a source's state or the alarm changes. -/
def State.settle (s : State) : State :=
  let s := s.settleSrc (s.g - s.ent.credAt) 4
  { s with ent := { s.ent with credAt := s.g } }

/-- Every credit counter is 0. -/
def State.zeroCredit (s : State) : State :=
  { s with ent := { s.ent with sources := mmap dfltSrc (fun _ x => { x with credit := 0 }) s.ent.sources, credAt := s.g } }

/-- The total credit after a number of beats from the last settling. -/
def State.totalAfter (s : State) (beats : Nat) : Nat := ((List.range 4).map fun n => s.creditAfter n beats).foldl (· + ·) 0

/-! ## Modes (R471, R472) -/

/-- Applies a change to every DRBG instance. -/
def State.mapDrbgs (s : State) (f : Drbg → Drbg) : State :=
  { s with ent := { s.ent with drbgs := mmap dfltDrbg (fun _ d => f d) s.ent.drbgs } }

/-- ENT enters HALTED: instances stop, and the requests that wait are refused (R464, R472). -/
def State.entHalt (s : State) : State :=
  let s := s.mapDrbgs fun d => if d.st == .serving || d.st == .reseeding then { d with st := .stopped } else d
  { s with ent := { s.ent with
    mode := .halted, waiting := 0, denied := s.ent.denied + BitVec.ofNat 32 s.ent.waiting } }

/-- The count of passing sources changes the mode (R471). -/
def State.entMode (s : State) : State :=
  let p := s.passing
  let goes (s : State) (m : EntMode) : State := { s with ent := { s.ent with mode := m } }
  match s.ent.mode with
  | .startup =>
    if s.ent.katFail then s.entHalt
    else if 2 ≤ p then goes s (if p = 4 then .full else .degraded)
    else if (List.range 4).all fun n => (s.src n).st != .startup && (s.src n).st != .off then s.entHalt else s
  | .full =>
    if p < 2 then s.entHalt.raiseEnt 5 0 0 0 else if p < 4 then (goes s .degraded).raiseEnt 4 0 0 0 else s
  | .degraded =>
    if p < 2 then s.entHalt.raiseEnt 5 0 0 0 else if p = 4 then goes s .full else s
  | .halted =>
    if 2 ≤ p && !s.ent.katFail then
      goes (s.mapDrbgs fun d => if d.st == .stopped then { d with st := .reseeding } else d) .degraded
    else s

/-! ## Sources (R453, R454, R458) -/

/-- A source enters a state now. -/
def State.srcTo (s : State) (n : Nat) (st : SrcSt) : State := s.setSrc n { s.src n with st := st, since := s.g }

/-- Global beats of 1,024 samples, of oscillator settling (10 µs, rounded up), and of 1 s. -/
abbrev startupBeats : Nat := 4000
abbrev settleBeats : Nat := 391

/-- ENT leaves reset: the sources start, and the known-answer tests run alongside (R453, R466, R471). -/
def execEntStart (katOk : Bool) (s : State) : Host.Outcome State Fault Refusal :=
  .next (if s.ent.started || !s.lcc.decoded || s.boot.halted then s
  else
    let s := { s with ent := { s.ent with started := true, katOk := katOk, katFail := !katOk, credAt := s.g } }
    let start (s : State) (n : Nat) : State := s.setSrc n { s.src n with st := .startup, since := s.g + settleBeats }
    let s := start (start (start (start s 0) 1) 2) 3
    if katOk then s else s.entMode.raiseEnt 6 0 0 0)

/-- A window of 1,024 samples passes, its highest count below 965 (R452): the startup test of a source ends and it enters PASS;
of a source in PASS the count of its last completed window changes (R453, R454, R475). -/
def execStartupTestPass (src : BitVec 2) (apt : BitVec 11) (s : State) : Host.Outcome State Fault Refusal :=
  let n := src.toNat
  .next (if 965 ≤ apt.toNat then s
  else if (s.src n).st == .startup then
    let s := (s.goTo ((s.src n).since + startupBeats)).settle
    let s := s.srcTo n .pass
    (s.setSrc n { s.src n with aptMax := apt.toNat }).entMode
  else if (s.src n).st == .pass then s.setSrc n { s.src n with aptMax := apt.toNat }
  else s)

/-- A source fails RCT, or APT: it enters FAILED, and from PASS the ready block and every credit are lost (R452, R454,
R458). -/
def execSourceHealthFail (src : BitVec 2) (apt : Bool) (s : State) : Host.Outcome State Fault Refusal :=
  let n := src.toNat
  let x := s.src n
  .next (if x.st == .startup || x.st == .pass then
    let s := s.settle
    let cause := if x.st == .startup then 3 else if apt then 2 else 1
    let s := s.setSrc n { s.src n with st := .failed, fails := min 15 (x.fails + 1), cause := cause, since := s.g }
    let s := { s with ent := { s.ent with srcFails := s.ent.srcFails + 1#32 } }
    let s := if x.st == .pass then let s := s.zeroCredit
                                   { s with ent := { s.ent with block := none } } else s
    (s.raiseEnt n (if apt then 2 else 1) n (if apt then 965 else 201)).entMode
  else s)

/-- One second after a failure the source tries again, or is DISABLED (R454). -/
def execSourceRetry (src : BitVec 2) (s : State) : Host.Outcome State Fault Refusal :=
  let n := src.toNat
  .next (if (s.src n).st == .failed then
    let s := s.goTo ((s.src n).since + beatsPerSec)
    (s.srcTo n (if (s.src n).fails ≤ 3 then .startup else .disabled)).entMode
  else s)

/-- RESTART of one source (R454, R473). -/
def State.restartSrc (s : State) (n : Nat) : State :=
  match (s.src n).st with
  | .off => s
  | .failed => (s.setSrc n { s.src n with fails := 0 }).srcTo n .startup
  | .disabled => (s.setSrc n { s.src n with fails := 0 }).srcTo n .startup
  | .startup => s.srcTo n .startup
  | .pass => (s.setSrc n { s.src n with credit := 0 }).srcTo n .startup

/-- A write of ENT_CTRL.RESTART: bit n restarts source n (R454, R475). -/
def execSourceRestart (mask : BitVec 4) (s : State) : Host.Outcome State Fault Refusal :=
  .next (s.pfWrite fun s =>
    ((List.range 4).foldl (fun s n => if mask.getLsbD n then s.restartSrc n else s) s.settle).entMode)

/-- The compressor forms a block once its credit allows; the bits are the register's (R456). -/
def execEntropyBlockFormed (bits : BitVec 512) (s : State) : Host.Outcome State Fault Refusal :=
  .next (if s.ent.block.isSome then s
  else
    let s := s.settle
    match (List.range 3751).find? fun t => decide (blockCredit ≤ s.totalAfter t) with
    | none => s
    | some t =>
      let s := (s.goTo (s.g + t)).zeroCredit
      { s with ent := { s.ent with comp := bits, block := some bits } })

/-! ## The DRBG bank (R460 to R465) -/

/-- An instance waits for an entropy block. -/
def Drbg.waits (d : Drbg) : Bool := d.st == .uninst || d.st == .reseeding

/-- The instance to which the next block goes (R464). -/
def State.nextWaiting (s : State) : Option Nat := (List.range 16).find? fun n => (s.drbg n).waits

/-- BOOT_ID is drawn from the first output where bring-up could not draw it (R543). -/
def State.lateBootId (s : State) : State :=
  if !s.boot.bootIdDue then s
  else match s.draw with
    | none => s
    | some (x, s) =>
      { s with keys := { s.keys with bootId := x.setWidth 64 }, boot := { s.boot with bootIdDue := false } }

/-- The waiting requests of consumers without a row of their own are served, `n` at most, while an instance serves (R463). -/
def State.serveWaiting (s : State) : Nat → State
  | 0 => s
  | n + 1 =>
    if s.ent.waiting = 0 then s
    else match s.draw with
      | none => s
      | some (_, t) => State.serveWaiting { t with ent := { t.ent with waiting := t.ent.waiting - 1 } } n

/-- An instance takes the block and serves, the requests that waited first (R457, R463, R464). -/
def State.takeBlock (s : State) (n : Nat) (w : BitVec 512) : State :=
  let s := s.setDrbg n { st := .serving, work := w, reqs := 0 }
  let s := State.lateBootId { s with ent := { s.ent with block := none, reseeds := s.ent.reseeds + 1#32 } }
  s.serveWaiting s.ent.waiting

/-- ENT serves: FULL or DEGRADED. -/
def State.entServes (s : State) : Bool := s.ent.mode == .full || s.ent.mode == .degraded

/-- Instantiation from a block, under the personalisation string of R460. -/
def execDrbgInstantiate (drbg : BitVec 4) (s : State) : Host.Outcome State Fault Refusal :=
  let n := drbg.toNat
  .next (match s.ent.block with
  | none => s
  | some b =>
    if s.entServes && s.nextWaiting == some n && (s.drbg n).st == .uninst then
      s.takeBlock n (drbgInst b (natLe 1 n ++ natLe 7 0 ++ natLe 8 s.otp.serial.toNat))
    else s)

/-- Reseeding from a block (R461, R464). -/
def execDrbgReseed (drbg : BitVec 4) (s : State) : Host.Outcome State Fault Refusal :=
  let n := drbg.toNat
  .next (match s.ent.block with
  | none => s
  | some b =>
    if s.entServes && s.nextWaiting == some n && (s.drbg n).st == .reseeding then
      s.takeBlock n (drbgReseed (s.drbg n).work b)
    else s)

/-- A request of a consumer without a row of its own: served, handed over and erased (R461, R463, R465); held while no
instance serves; refused and counted while ENT is HALTED (R472, R475). -/
def execDrbgRequest (s : State) : Host.Outcome State Fault Refusal :=
  .next (match s.draw with
  | some (_, s) => s
  | none => if s.ent.mode == .halted then s.deniedDraw
            else { s with ent := { s.ent with waiting := s.ent.waiting + 1 } })

/-- A parity error returns an instance to UNINST (R464). -/
def execDrbgParity (drbg : BitVec 4) (s : State) : Host.Outcome State Fault Refusal :=
  .next ((s.setDrbg drbg.toNat Drbg.reset).raiseEnt 7 0 drbg.toNat 0)

/-! ## The software port and the IV reserve (R468, R469) -/

/-- The buffer of the Supervisor or the Manager. -/
def Ent.buf (e : Ent) (sup : Bool) : List W32 := if sup then e.supBuf else e.swBuf
def Ent.setBuf (e : Ent) (sup : Bool) (b : List W32) : Ent := if sup then { e with supBuf := b } else { e with swBuf := b }

/-- A read of ENT_SUP_DATA or ENT_SW_DATA (R469); before readiness the Manager's read gives 0 (R544). -/
def execSwDataRead (sup : Bool) (s : State) : Host.Outcome State Fault Refusal :=
  .next (if !sup && !s.boot.ready then State.bringupAccess { s with rdata := 0#32 } 0
  else match s.ent.buf sup with
    | w :: t => { s with rdata := w, ent := s.ent.setBuf sup t }
    | [] => State.raiseEnt { s with rdata := 0#32 } 8 0 0 0)

/-- An empty buffer is refilled with 512 bits, unless ENT is HALTED (R469). -/
def execSwBufferRefill (sup : Bool) (s : State) : Host.Outcome State Fault Refusal :=
  .next (if !(s.ent.buf sup).isEmpty || s.ent.mode == .halted then s
  else match s.draw with
    | none => s
    | some (x, s) =>
      { s with ent := s.ent.setBuf sup ((List.range 16).map fun k => BitVec.ofNat 32 (x.toNat / 2 ^ (32 * k))) })

/-- The IV reserve takes 5 IVs from a request when it holds 123 or fewer (R468). -/
def execIvReserveRefill (s : State) : Host.Outcome State Fault Refusal :=
  .next (if 123 < s.ent.ivs.length then s
  else match s.draw with
    | none => s
    | some (x, s) =>
      let fresh : List (BitVec 96) := (List.range 5).map fun k => BitVec.ofNat 96 (x.toNat / 2 ^ (96 * k))
      { s with ent := { s.ent with ivs := s.ent.ivs ++ fresh } })

end Sys2Proof.Machine
end

