-- ==== Sys2Proof/Machine/Reset.lean ====
section
/-!
DEFINITION. Device reset (R531 to R533) and the response levels of the tamper monitor (R550 to R554, R572).
-/
namespace Sys2Proof.Machine

/-! ## Records of the device itself (R598) -/

/-- Hands a record without a source to the event recorder: class 3, the body's words (R596, R598). -/
def State.noteRec (s : State) (type : Nat) (body : List W32) : State :=
  s.note { type := type, flags := 3, body := body.flatMap fun w => natLe 4 w.toNat, rep := 0, opsec := s.evr.opsec }

/-! ## Device reset -/

/-- The always-on part of the monitor across a device reset: settings, STUCK, evidence, battery record and counters stay;
LOCK clears (R532, R566); times are counted from the new start of G (R184; log entry 42). -/
def Tmp.across (t : Tmp) (g : Nat) : Tmp :=
  { t with
    lock := false, filt := 0#6, raw := 0#6, tj := 0#16
    resp := if t.resp = 2 then 2 else 0
    holdFrom := t.holdFrom - g
    quietAt := (List.range 6).foldl (fun m n =>
      mset (fun _ => (0 : Int)) m n (if t.filt.getLsbD n then 0 else mget (fun _ => (0 : Int)) t.quietAt n - g)) [] }

/-- The always-on part of the event recorder, and what waits for the ring: nothing is dropped (R599, R601, R606; log entry
49). -/
def Evr.across (e : Evr) : Evr :=
  { Evr.reset with waiting := e.waiting, lg := e.lg, lgUsed := e.lgUsed, lgDrop := e.lgDrop, opsec := e.opsec, subsec := e.subsec, pcyc := e.pcyc
                   cycleDue := e.cycleDue }

/-- Reservation counters held by calls that a reset discards return free (R445; log entry 43). -/
def Bbram.across (b : Bbram) : Bbram :=
  { b with counters := b.counters.filter fun c => !c.2.reserved || c.2.bound }

/-- Bring-up starts over with a cause; slot fail counts, pins and the strap are kept until PERST_N is released (R531, R539,
R645). -/
def Boot.across (b : Boot) (cause : Nat) : Boot :=
  { Boot.reset with power := b.power, perst := b.perst, strap := b.strap, failsA := b.failsA, failsB := b.failsB
                    phase := if b.power && !b.perst then 1 else 0, cause := cause }

/-- The card as it stands in its slot: presence, protection and content (R615, R618). -/
def Sd.across (d : Sd) : Sd := { Sd.reset with present := d.present, wp := d.wp, part := d.part, blocks := d.blocks }

/-- A device reset with a cause: every domain but the always-on domain, the fuses, the flash and DRAM starts over (R531,
R532, R533). Host memory and the model's own counters are outside the device. -/
def State.deviceReset (s : State) (cause : Nat) : State :=
  { State.reset with
    pending := s.pending, freeCtr := s.freeCtr, hostMem := s.hostMem, rdata := s.rdata
    bbram := s.bbram.across, dram := s.dram, otp := s.otp, nor := s.nor, sd := s.sd.across
    evr := s.evr.across, boot := s.boot.across cause, tmp := s.tmp.across s.g
    alarm := s.alarm && s.tmp.resp == 2 }

/-! ## Zeroisation -/

/-- Every bit of BBRAM is cleared (R521, R552). -/
def State.eraseBbram (s : State) : State :=
  { s with bbram := { Bbram.reset with eraSpent := s.bbram.eraSpent } }

/-- The EPISODE record of the episode that ends now (R598). -/
def State.episodeRec (s : State) : List W32 := [s.tmpStat, s.tmpEvidence]

/-- A reset carried out now; L4 zeroises first, and a tamper reset ends its episode (R550, R552, R572). -/
def State.doReset (s : State) (cause : Nat) : State :=
  let s := if cause = 4 then s.eraseBbram else s
  if cause = 3 ∨ cause = 4 then
    let rec0 := s.episodeRec
    (s.deviceReset cause).noteRec 0x405 rec0
  else s.deviceReset cause

/-- The cause kept when reset requests wait together: L4, then L3, then the first to arrive (R518, R554; log entry 44). -/
def laterCause (old : Option Nat) (new : Nat) : Nat :=
  match old with
  | none => new
  | some c => if new = 4 ∨ (new = 3 ∧ c ≠ 4) then new else c

/-- A request for a reset: it waits while a life-cycle transition is programmed (R518). -/
def State.askReset (s : State) (cause : Nat) : State :=
  if s.lcc.trans.isSome then { s with lcc := { s.lcc with waitReset := some (laterCause s.lcc.waitReset cause) } }
  else s.doReset cause

/-! ## L2 (R25, R326, R551) -/

/-- The call has not reached its release: an alarm ends it. -/
def Call.stoppable (c : Call) : Bool := c.st != .released && c.st != .keyOp

/-- One call under an L2 response: an engine call in its peal leaves it, any other ends now (R25, R232, R326, R551). -/
def State.alarmCall (s : State) (k : Nat) (c : Call) : State :=
  if !c.stoppable then s
  else if isMauOp c.opcode then s.mauAbortCall k c 0x11
  else if c.st == .inPeal then c.place.foldl (fun s h => s.leavePeal h.unit .alarm) s
  else s.endCall k 0x11 false

/-- A unit in direct mode stops (R326). -/
def State.alarmDirect (s : State) : State :=
  (s.maus.filter fun m => m.2.direct && m.2.cmd.isSome).foldl (fun s m => s.directEnd m.1 4) s

/-- An L2 response comes into force (R551, R632). -/
def State.enterL2 (s : State) : State :=
  if s.alarm then s
  else
    let s := { s.settle with alarm := true }
    let s := s.allCalls.foldl (fun s e => s.alarmCall e.1 e.2) s
    let s := s.alarmDirect.dmaAlarm.freeAllCtxs
    { s with mgt := { s.mgt with attest := 3 } }

/-! ## Alarms -/

/-- An L0 alarm: recorded in the event recorder and in TMP_FSTAT only (R550). -/
def State.recordOnly (s : State) (b : Nat) (d0 d1 : W32) (forced : Bool) : State :=
  let f := s.fault blkTmp
  if !bit32 f.fen b then s
  else
    let syn0 := synWord blkTmp b d0
    let f := { f with fstat := f.fstat ||| at32 1 b }
    let f := if bit32 f.fsyn0 31 then { f with fmerge := min 0xFFFF (f.fmerge + 1) }
             else { f with fsyn0 := syn0, fsyn1 := d1 }
    (s.setFault blkTmp f).note
      { type := sourceNum blkTmp b, flags := sourceClass blkTmp b + 4 * b2n forced
        body := natLe 4 syn0.toNat ++ natLe 4 d1.toNat, rep := 0, opsec := s.evr.opsec }

/-- The response of a level: an episode begins where none is in force, the hold starts again, and the level's actions are
carried out (R550 to R554, R572). -/
def State.respond (s : State) (src level : Nat) : State :=
  if level < 2 then s
  else
    let t := s.tmp
    let t := if t.resp = 0 then { t with evid := min 15 (t.evid + 1), cntEpisode := t.cntEpisode + 1#32, first := src } else t
    let s := ({ s with tmp := { t with resp := max t.resp level, holdFrom := s.g } }).enterL2
    if 3 ≤ level then s.askReset (min level 4) else s

/-- An alarm of a source: it is counted, recorded at its own level, and acted on (R550, R554, R577). -/
def State.tmpAlarm (s : State) (b unit level : Nat) (detail : W32) (forced : Bool) : State :=
  let s := { s with tmp := { s.tmp with cntAlarm := s.tmp.cntAlarm + 1#32 } }
  let d0 := if forced then 0#32 else at32 level 24 ||| at32 unit 0
  let s := if level = 0 then s.recordOnly b d0 detail forced else s.raiseWith blkTmp b d0 detail forced
  s.respond b level

/-- A source stays outside its band until it returns (R553). -/
def State.tmpHold (s : State) (b unit level : Nat) : State :=
  { s with tmp := { s.tmp with
    active := { src := b, unit := unit, level := level } :: s.tmp.active.filter fun a => a.src != b || a.unit != unit } }

/-- An alarm of a source that then stays active. -/
def State.tmpRaise (s : State) (b unit level : Nat) : State := (s.tmpHold b unit level).tmpAlarm b unit level 0#32 false

end Sys2Proof.Machine
end

