-- ==== Sys2Proof/Machine/Tamper.lean ====
section
/-!
DEFINITION. The tamper and environment monitor's events and settings (R555 to R575). What a detector sees comes from
outside: the rail, the input or the reading is an operand.
-/
namespace Sys2Proof.Machine

/-- The monitor runs from the main rails (R568). -/
def State.onMain (s : State) : Bool := s.boot.power && !s.tmp.battery

/-! ## Rails (R555 to R557, R643, R644) -/

/-- Levels of a rail: glitch and slow excursion (R577). -/
def Tmp.glitchLevel (t : Tmp) (rail : Nat) : Nat := fld t.lvlRail (6 * rail) 3
def Tmp.slowLevel (t : Tmp) (rail : Nat) : Nat := fld t.lvlRail (6 * rail + 3) 3

/-- An excursion below the band of VCORE, VSRAM or VIO18 raises no alarm while PERST_N is asserted (R644). -/
def State.railQuiet (s : State) (rail : Nat) (below : Bool) : Bool := s.boot.perst && decide (rail < 3) && below

/-- Design A latches an excursion (R555). -/
def execRailGlitch (rail : BitVec 2) (below : Bool) (s : State) : Host.Outcome State Fault Refusal :=
  .next (if !s.onMain || s.railQuiet rail.toNat below then s
    else s.tmpRaise 0 rail.toNat (s.tmp.glitchLevel rail.toNat))

/-- Design B reports an excursion of 20 µs (R555). -/
def execRailSlowExcursion (rail : BitVec 2) (below : Bool) (s : State) : Host.Outcome State Fault Refusal :=
  .next (if !s.onMain || s.railQuiet rail.toNat below then s
    else s.tmpRaise 1 rail.toNat (s.tmp.slowLevel rail.toNat))

/-- The two designs disagree on a rail (R556). -/
def execDetectorDisagree (rail : BitVec 2) (below : Bool) (s : State) : Host.Outcome State Fault Refusal :=
  .next (if !s.onMain || s.railQuiet rail.toNat below then s else s.tmpRaise 2 rail.toNat (fld s.tmp.lvlEnv 0 3))

/-! ## Temperature and clocks (R558, R559) -/

/-- A source is already outside its band. -/
def Tmp.has (t : Tmp) (b : Nat) : Bool := t.active.any fun a => a.src == b

/-- The filtered junction temperature is read, in units of 0.125 °C: above +120 °C and below −50 °C it raises its alarm
once (R558). -/
def execTempAlarm (tj : BitVec 16) (s : State) : Host.Outcome State Fault Refusal :=
  .next (if !s.onMain then s
  else
    let s := { s with tmp := { s.tmp with tj := tj } }
    if 960 < tj.toInt ∧ s.tmp.has 3 = false then s.tmpRaise 3 0 (fld s.tmp.lvlEnv 3 3)
    else if tj.toInt < -400 ∧ s.tmp.has 4 = false then s.tmpRaise 4 0 (fld s.tmp.lvlEnv 6 3)
    else s)

/-- SYSCLK, REFCLK or a PLL output leaves its band (R559). -/
def execClockFault (s : State) : Host.Outcome State Fault Refusal :=
  .next (if !s.onMain then s else s.tmpRaise 5 0 (fld s.tmp.lvlEnv 9 3))

/-- XTAL32 has stopped for 8 ms while the main rails are up (R559). -/
def execXtalStop (s : State) : Host.Outcome State Fault Refusal :=
  .next (if !s.onMain then s else s.tmpRaise 6 0 (fld s.tmp.lvlEnv 12 3))

/-! ## Inputs and mesh (R560 to R564) -/

/-- The level of an input by its STUCK bit: 0 to 3 the loops, 4 the mesh, 5 ZEROIZE_N (R564, R577). -/
def Tmp.inLevel (t : Tmp) (n : Nat) : Nat := if n = 5 then 4 else fld t.lvlIn (3 * n) 3

/-- The input is watched: loops by EN, the mesh by MESH_EN, ZEROIZE_N always (R560, R563, R564). -/
def Tmp.watched (t : Tmp) (n : Nat) : Bool :=
  if n < 4 then bit32 t.inCfg n else if n = 4 then t.meshEn else decide (n = 5)

/-- The source bit of an input (R578). -/
def inSource (n : Nat) : Nat := if n < 4 then 7 else if n = 4 then 8 else 9

/-- Bit `n` of six. -/
def bit6 (n : Nat) : BitVec 6 := BitVec.ofNat 6 (2 ^ n)

/-- An input becomes active: the filter and its sample read 1, and unless it is STUCK it raises its alarm once (R561,
R562). -/
def State.inputActive (s : State) (n unit : Nat) : State :=
  let t := s.tmp
  if !s.onMain || !t.watched n || (t.filt.getLsbD n && n != 4) then s
  else
    let stuck := t.stuck.getLsbD n
    let s := { s with tmp := { t with filt := t.filt ||| bit6 n, raw := t.raw ||| bit6 n, stuck := t.stuck ||| bit6 n } }
    let s := s.tmpHold (inSource n) unit (t.inLevel n)
    if stuck then s else s.tmpAlarm (inSource n) unit (t.inLevel n) 0#32 false

/-- A loop (0 to 3) or ZEROIZE_N (5) becomes active after the filter (R561). -/
def execTamperInputActive (input : BitVec 3) (s : State) : Host.Outcome State Fault Refusal :=
  let n := input.toNat
  .next (if n < 4 then s.inputActive n n else if n = 5 then s.inputActive 5 0 else s)

/-- A mesh pair becomes active after the filter (R563). -/
def execMeshBreach (pair : Bool) (s : State) : Host.Outcome State Fault Refusal := .next (s.inputActive 4 (b2n pair))

/-- An RWS field differs from its shadow: the field keeps its value (R567, R575). -/
def execShadowMismatch (region : BitVec 8) (offset : BitVec 32) (s : State) : Host.Outcome State Fault Refusal :=
  .next (if !s.onMain then s
  else
    let level := max 3 (fld s.tmp.lvlEnv 15 3)
    let s := { s with tmp := { s.tmp with cntAlarm := s.tmp.cntAlarm + 1#32 } }
    (s.raise blkTmp 10 (at32 level 24 ||| at32 region.toNat 0) offset).respond 10 level)

/-! ## The end of an alarm (R553) -/

/-- The STUCK bit a source belongs to. -/
def inputOf (src unit : Nat) : Option Nat :=
  if src = 7 then some (unit % 4) else if src = 8 then some 4 else if src = 9 then some 5 else none

/-- A source becomes inactive: the hold time starts when the last one of level 2 or above does (R553, R561). -/
def State.sourceQuiet (s : State) (src unit : Nat) : State :=
  let t := s.tmp
  match t.active.find? fun a => a.src == src && a.unit == unit with
  | none => s
  | some a =>
    let rest := t.active.filter fun x => x.src != src || x.unit != unit
    let t := { t with active := rest, holdFrom := if 2 ≤ a.level then s.g else t.holdFrom }
    let t := match inputOf src unit with
      | some n =>
        if rest.any fun x => inputOf x.src x.unit == some n then t
        else { t with filt := t.filt &&& ~~~(bit6 n), raw := t.raw &&& ~~~(bit6 n)
                      quietAt := mset (fun _ => (0 : Int)) t.quietAt n s.g }
      | none => t
    { s with tmp := t }

/-- A source returns to its band or becomes inactive after the filter (R553). -/
def execAlarmSourceInactive (src : BitVec 4) (unit : BitVec 3) (s : State) : Host.Outcome State Fault Refusal :=
  .next (s.sourceQuiet src.toNat unit.toNat)

/-- The hold time has passed with every source of level 2 or above inactive: the response ends, and with it the episode
(R553, R572, R603). -/
def execHoldEnd (s : State) : Host.Outcome State Fault Refusal :=
  .next (if s.tmp.resp = 2 ∧ s.tmp.disturbed = false then
    let s := (s.goTo s.tmp.holdEnd.toNat).settle
    let s := s.noteRec 0x405 s.episodeRec
    { s with alarm := false, tmp := { s.tmp with resp := 0 } }
  else s)

/-! ## Settings (R562, R565, R566, R577) -/

/-- TMP_REG_ACCESS. -/
def State.tmpAccess (s : State) : State := s.raise blkTmp 13 0#32 0#32

/-- Global beats in 1 s of quiet, for a re-arm (R562). -/
abbrev rearmBeats : Int := 39062500

/-- REARM: a bit takes effect when its source has been inactive for 1 s (R562). -/
def State.rearm (s : State) (bits : BitVec 6) : State :=
  let t := s.tmp
  let ok := (List.range 6).foldl (fun (m : BitVec 6) n =>
    if bits.getLsbD n && !t.filt.getLsbD n && decide (rearmBeats ≤ s.g - mget (fun _ => (0 : Int)) t.quietAt n)
    then m ||| bit6 n else m) 0#6
  { s with tmp := { t with stuck := t.stuck &&& ~~~ok } }

/-- An input that is no longer watched is no longer active. -/
def State.unwatch (s : State) : List Nat → State
  | [] => s
  | n :: l =>
    let s := if s.tmp.filt.getLsbD n && !s.tmp.watched n then
        (s.tmp.active.filter fun a => inputOf a.src a.unit == some n).foldl (fun s a => s.sourceQuiet a.src a.unit) s
      else s
    s.unwatch l

/-- The RWL fields of the monitor are locked: by TMP_CTRL.LOCK, or in SCRAP (R527, R566). -/
def State.tmpLocked (s : State) : Bool := s.tmp.lock || s.lc == .scrap

/-- A write of TMP_CTRL by the Manager: LOCK, MESH_EN, HOLD_MS and REARM (R553, R562, R566, R663; log entry 45). -/
def State.tmpCtrlWrite (s : State) (w : W32) : State :=
  let t := s.tmp
  let hold := fld w 16 10
  let badHold := decide (hold = 0) || decide (1000 < hold)
  let s := if s.tmpLocked then
      if badHold || hold != t.holdMs || bit32 w 30 != t.meshEn || bit32 w 31 != t.lock then s.tmpAccess else s
    else if badHold then s.tmpAccess
    else State.unwatch { s with tmp := { t with meshEn := bit32 w 30, holdMs := hold, lock := bit32 w 31 } } [4]
  s.rearm (w.setWidth 6)

/-- TMP_CTRL as it reads (R577). -/
def Tmp.ctrl (t : Tmp) : W32 := flagAt t.lock 31 ||| flagAt t.meshEn 30 ||| at32 (t.holdMs % 1024) 16

/-- The lowest and highest level each field of a level register permits (R565). -/
def lvlRange : LvlReg → List (Nat × Nat)
  | .rail => [(2, 4), (3, 4), (2, 4), (3, 4), (2, 4), (3, 4), (1, 4), (1, 4)]
  | .env => [(2, 4), (1, 4), (2, 4), (2, 4), (1, 4), (3, 4)]
  | .inputs => [(0, 4), (0, 4), (0, 4), (0, 4), (3, 4)]

/-- Every field of a written level register lies in its range (R565). -/
def lvlOk (r : LvlReg) (w : W32) : Bool :=
  ((lvlRange r).zip (List.range 8)).all fun x => decide (x.1.1 ≤ fld w (3 * x.2) 3) && decide (fld w (3 * x.2) 3 ≤ x.1.2)

/-- The writable bits of a level register (R577). -/
def lvlMask : LvlReg → W32
  | .rail => 0xFFFFFF#32
  | .env => 0x3FFFF#32
  | .inputs => 0x7FFF#32

/-- A level register's writable value. -/
def Tmp.lvl (t : Tmp) : LvlReg → W32
  | .rail => t.lvlRail
  | .env => t.lvlEnv
  | .inputs => t.lvlIn &&& 0x7FFF#32

/-- The monitor with a level register replaced; ZEROIZE stays 4 (R564). -/
def Tmp.setLvl (t : Tmp) (w : W32) : LvlReg → Tmp
  | .rail => { t with lvlRail := w }
  | .env => { t with lvlEnv := w }
  | .inputs => { t with lvlIn := (w &&& 0x7FFF#32) ||| 0x20000#32 }

/-- A write of a level register by the Manager (R565, R566, R663). -/
def State.lvlWrite (s : State) (r : LvlReg) (w : W32) : State :=
  let v := w &&& lvlMask r
  if !lvlOk r w then s.tmpAccess
  else if s.tmpLocked then (if v != s.tmp.lvl r then s.tmpAccess else s)
  else { s with tmp := s.tmp.setLvl v r }

/-- A write of TMP_IN_CFG by the Manager (R560, R566, R663). -/
def State.inCfgWrite (s : State) (w : W32) : State :=
  let v := w &&& 0xFF#32
  if s.tmpLocked then (if v != s.tmp.inCfg then s.tmpAccess else s)
  else State.unwatch { s with tmp := { s.tmp with inCfg := v } } [0, 1, 2, 3]

/-- The Manager writes a level register (R565). -/
def execTmpLevelWrite (reg : LvlReg) (value : BitVec 32) (s : State) : Host.Outcome State Fault Refusal :=
  .next (s.pfWrite fun s => s.lvlWrite reg value)

/-- The Manager writes TMP_CTRL with LOCK set (R566, R575). -/
def execTmpLock (value : BitVec 32) (s : State) : Host.Outcome State Fault Refusal :=
  .next (s.pfWrite fun s => s.tmpCtrlWrite (value ||| 0x80000000#32))

/-- The Manager writes REARM bits, the other fields as they stand (R562). -/
def execRearm (bits : BitVec 6) (s : State) : Host.Outcome State Fault Refusal :=
  .next (s.pfWrite fun s => s.tmpCtrlWrite (s.tmp.ctrl ||| bits.setWidth 32))

/-! ## Battery operation (R568 to R571) -/

/-- An alarm on battery of the source of a STUCK bit (R562, R571, R572). -/
def State.battAlarm (s : State) (n : Nat) : State :=
  let t := s.tmp
  let lv := t.inLevel n
  let ep := decide (2 ≤ lv)
  let t := { t with
    stuck := t.stuck ||| bit6 n
    cntAlarm := t.cntAlarm + 1#32
    evid := if ep then min 15 (t.evid + 1) else t.evid
    cntEpisode := if ep then t.cntEpisode + 1#32 else t.cntEpisode
    battRec := t.battRec ||| at32 1 n ||| flagAt (decide (lv = 4)) 31 }
  let s := { s with tmp := t }
  if lv = 4 then s.eraseBbram else s

/-- Global beats of the 4 ms between windows, which the beat count does not advance by on battery (R568). -/
abbrev windowBeats : Int := 156250

/-- One window's sample of a source: active after two consecutive active windows; a quiet source's time of quiet goes on
(R562, R568, R569, R571). -/
def State.battSample (s : State) (act : BitVec 6) (n : Nat) : State :=
  let t := s.tmp
  if !act.getLsbD n then
    let quiet := if t.filt.getLsbD n then (s.g : Int) else mget (fun _ => (0 : Int)) t.quietAt n - windowBeats
    { s with tmp := { t with filt := t.filt &&& ~~~(bit6 n), quietAt := mset (fun _ => (0 : Int)) t.quietAt n quiet } }
  else if t.battPrev.getLsbD n && !t.filt.getLsbD n then
    let s := { s with tmp := { t with filt := t.filt ||| bit6 n } }
    if t.stuck.getLsbD n then s else s.battAlarm n
  else s

/-- The sources that can be active in a window (R560, R563, R564). -/
def Tmp.watchMask (t : Tmp) : BitVec 6 := (List.range 6).foldl (fun m n => if t.watched n then m ||| bit6 n else m) 0#6

/-- A sampling window on battery, with the sources found active in it (R569, R571). -/
def execBatteryWindow (active : BitVec 6) (s : State) : Host.Outcome State Fault Refusal :=
  .next (if !s.tmp.battery then s
  else
    let act := active &&& s.tmp.watchMask
    let s := (List.range 6).foldl (fun s n => s.battSample act n) s
    { s with tmp := { s.tmp with battPrev := act, raw := act } })

/-- XTAL32 stops on battery: a mesh breach at the mesh level, where a loop or the mesh is enabled (R566, R570; log entry
46). -/
def execBatteryXtalStop (s : State) : Host.Outcome State Fault Refusal :=
  .next (if !s.tmp.battery then s
  else
    let s := { s with tmp := { s.tmp with battRec := s.tmp.battRec ||| 0x40#32 } }
    if s.tmp.stuck.getLsbD 4 || !(s.tmp.meshEn || fld s.tmp.inCfg 0 4 != 0) then s else s.battAlarm 4)

/-! ## Evidence (R573, R574) -/

/-- Global beats that cover the programming of a number of fuse bits, 50 µs each. -/
def fuseBeats (n : Nat) : Nat := (n * 15625 + 7) / 8

/-- The pending count moves into the thermometer, and is cleared (R573). -/
def State.moveEvidence (s : State) : State :=
  let n := min s.tmp.evid (512 - s.otp.evidence)
  { (s.goTo (s.g + fuseBeats n)) with
    otp := { s.otp with evidence := s.otp.evidence + n }
    tmp := { s.tmp with evid := 0 } }

/-- The OTP is free (R574). -/
def State.otpFree (s : State) : Bool := s.lcc.trans.isNone

/-- The pending count is programmed while the main rails are up and the OTP is free (R573). -/
def execEvidenceMove (s : State) : Host.Outcome State Fault Refusal :=
  .next (if s.tmp.evid = 0 ∨ s.onMain = false ∨ s.lcc.decoded = false ∨ s.otpFree = false then s else s.moveEvidence)

end Sys2Proof.Machine
end

