-- ==== Sys2Proof/Machine/Lcc.lean ====
section
/-!
DEFINITION. The life-cycle controller: codewords, packages, transitions, the challenge, and debug authorisation (R508 to
R526).
-/
namespace Sys2Proof.Machine

/-! ## Codewords (R510, R511, R523) -/

/-- The codeword of a state (R510). -/
def LcState.word : LcState → BitVec 64
  | .raw => 0#64
  | .test => 0x0000111111111111#64
  | .mfg => 0x0000333333333333#64
  | .owned => 0x0000777777777777#64
  | .rma => 0x0000FFFFFFFFFFFF#64
  | .scrap => 0xFFFFFFFFFFFFFFFF#64

/-- The state a valid copy stands for (R511). -/
def lcDecode (w : BitVec 64) : Option LcState :=
  [LcState.raw, .test, .mfg, .owned, .rma, .scrap].find? fun x => x.word == w

/-- The state in force: the one that two or more valid copies agree on (R511). -/
def Otp.state (o : Otp) : Option LcState :=
  if o.lcA = o.lcB ∨ o.lcA = o.lcC then lcDecode o.lcA
  else if o.lcB = o.lcC then lcDecode o.lcB
  else none

/-- LCC_STAT.CONFIG by majority of the copies: 0 unset, 1 compact, 2 full, 3 invalid (R523). -/
def Otp.config (o : Otp) : Nat :=
  let v := if o.cfg0 = o.cfg1 ∨ o.cfg0 = o.cfg2 then some o.cfg0.toNat
    else if o.cfg1 = o.cfg2 then some o.cfg1.toNat else none
  match v with
  | some 0x00 => 0 | some 0x0F => 1 | some 0xF0 => 2 | _ => 3

/-- The syndrome of an LCC source: RESULT at the error (R529). -/
def State.raiseLcc (s : State) (b : Nat) : State := s.raise blkLcc b (at32 (s.lcc.result % 256) 0) 0#32

/-- The fuses are decoded: state, configuration and the word LCC_STAT shows (R511, R523, R529). -/
def State.decodeFuses (s : State) : State :=
  let st := s.otp.state
  let lc := st.getD .scrap
  let ok (w : BitVec 64) : Bool := st.isSome && w == lc.word
  let oks : BitVec 3 := BitVec.ofNat 3 (4 * b2n (ok s.otp.lcA) + 2 * b2n (ok s.otp.lcB) + b2n (ok s.otp.lcC))
  let s := { s with
    lc := lc
    lcc := { s.lcc with
      config := s.otp.config, invalid := st.isNone, oks := oks, decoded := true
      part := st.isSome && (s.otp.lcA &&& ~~~lc.word) != 0#64 } }
  if oks = 7#3 then s else s.raiseLcc 1

/-! ## Transitions (R512, R515) -/

/-- The state a TARGET code leads to (R512). -/
def targetState (t : Nat) : Option LcState :=
  match t with
  | 1 => some .test | 2 => some .mfg | 3 => some .owned | 4 => some .rma | 5 => some .scrap | _ => none

/-- Who signs a listed transition: the Maker, the key authority; none where R512 does not list it. -/
def authority (lc : LcState) (t : Nat) : Option (Bool × Bool) :=
  match lc, t with
  | .test, 2 => some (true, false)
  | .mfg, 3 => some (true, true)
  | .mfg, 4 => some (true, false)
  | .owned, 4 => some (false, true)
  | .test, 5 => some (true, false)
  | .mfg, 5 => some (true, false)
  | .rma, 5 => some (true, false)
  | .owned, 5 => some (false, true)
  | .owned, 0x10 => some (false, true)
  | _, _ => none

/-- The length of a transition package (R513). -/
abbrev packageLen : Nat := 12183

/-- A field of a package. -/
def pkg (b : Bytes) (o n : Nat) : Bytes := (b.drop o).take n

/-- The fixed fields of a package, by target (R513). -/
def packageLayoutOk (b : Bytes) (maker ka : Bool) : Bool :=
  let t := leAt b 6 1
  let cfg := leAt b 72 1
  let pow := leAt b 73 1
  decide (b.length = packageLen) && leAt b 0 4 == 0x314C4B41 && leAt b 4 2 == 1 && leAt b 7 1 == 0
    && allZero (pkg b 74 6)
    && (if t = 3 then (cfg == 0x0F || cfg == 0xF0) && decide (pow ≤ 78)
        else cfg == 0 && pow == 0 && allZero (pkg b 80 64))
    && (ka || allZero (pkg b 2833 4723)) && (maker || allZero (pkg b 7556 4627))

/-- The signatures of a package (R513). -/
def State.packageSigned (s : State) (b : Bytes) (maker ka : Bool) : Bool :=
  let msg := pkg b 0 144
  let digest := if s.lc = .owned then s.otp.kaDigest else BitVec.ofNat 256 (leAt b 80 32)
  (!ka || authorityOk digest (ascii "AK-LC") (pkg b 144 2592) (pkg b 2736 97) msg (pkg b 2833 4627) (pkg b 7460 96))
    && (!maker || Config.makerVerify (ascii "AK-LC") msg (pkg b 7556 4627))

/-- Check 3 of R515. -/
def State.packageOk (s : State) (b : Bytes) (maker ka : Bool) (nonce : Option Bytes) : Bool :=
  packageLayoutOk b maker ka && pkg b 8 32 == s.targetId && nonce == some (pkg b 40 32) && s.packageSigned b maker ka

/-- A peal or a MAU call runs (R515). -/
def State.workRuns (s : State) : Bool :=
  s.engines.any (fun e => e.2.peal.isSome) || s.maus.any fun m => m.2.run.isSome

/-- Bits that the target adds to the state in force (R516). -/
def addedBits (lc : LcState) (t : LcState) : Nat := popcount (t.word &&& ~~~lc.word).toNat 64

/-- Checks 4 to 7 of R515: the RESULT of the first that fails. -/
def State.transCheck (s : State) (t : Nat) : Option Nat :=
  let busy := bit32 (s.reg 0x100004) 0 || s.workRuns
  match targetState t with
  | none => if busy then some 5 else none
  | some x =>
    if (s.otp.lcA &&& ~~~x.word) != 0#64 then some 6
    else if busy then some 5
    else if (t = 2 ∨ t = 3 ∨ t = 4) ∧ s.ent.mode = .halted then some 4
    else if t ≠ 5 ∧ s.lcc.vhold < 2200 + 150 * addedBits s.lc x then some 3
    else none

/-- The mailbox STATUS of a RESULT (R515). -/
def resultStatus (r : Nat) : Nat := match r with | 0 => 0x00 | 2 => 0x06 | 4 => 0x07 | _ => 0x05

/-- A refused request: RESULT, the count and LCC_XSTOP; nothing is programmed (R515, R530). -/
def State.transRefused (s : State) (t r : Nat) : State :=
  { s with lcc := { s.lcc with target := t, result := r, cntDeny := s.lcc.cntDeny + 1#32 } }.raiseLcc 2

/-- An accepted transition begins with its root and fuse step (R516). -/
def State.transBegin (s : State) (t : Nat) (x : LcState) (viaMbx : Bool) (b : Bytes) (serial : BitVec 64) : State :=
  { s with lcc := { s.lcc with
    target := t, result := 0
    trans := some {
      target := t, code := x.word, n := addedBits s.lc x, phase := 2, since := s.g, viaMbx := viaMbx
      config := BitVec.ofNat 8 (leAt b 72 1), power := BitVec.ofNat 8 (leAt b 73 1)
      kaDigest := BitVec.ofNat 256 (leAt b 80 32), ownerDigest := BitVec.ofNat 256 (leAt b 112 32), serial := serial } } }

/-- DEBUG_KILL is blown: enables drop with the first bit, and engines under debug are scrubbed (R526). -/
def State.blowKill (s : State) : State :=
  let s := { s with otp := { s.otp with kill := 0xFFFFFF#24 } }
  let s := (List.range 16).foldl (fun s c => if (s.cl c).dbgEn then s.dbgClose c else s) s
  let s := s.goTo (s.g + fuseBeats 24)
  { s with lcc := { s.lcc with target := 0x10, result := 0, cntTrans := s.lcc.cntTrans + 1#32 } }

/-- The LC_TRANSITION record: LCC_XSTAT and the copies (R598). -/
def State.lcRec (s : State) : List W32 :=
  s.lccXstat :: [s.otp.lcA, s.otp.lcB, s.otp.lcC].flatMap fun (w : BitVec 64) => [w.setWidth 32, (w >>> 32).setWidth 32]

/-- LC_CHALLENGE: a nonce from the software port, held until it is presented (R514). -/
def execLcChallenge (inst : BitVec 8) (s : State) : Host.Outcome State Fault Refusal :=
  let i := inst.toNat
  .next (s.mbxRun i 0x30 fun _ s =>
    if s.ent.mode = .halted then s.deniedDraw.answerMbx i 0x07 []
    else match s.supWords 8 2 with
      | none => s
      | some (w, s) =>
        let nonce := w.flatMap fun x => natLe 4 x.toNat
        State.answerMbx { s with lcc := { s.lcc with nonce := some nonce } } i 0x00 nonce)

/-- A request in a package: the RESULT that refuses it, under the checks of R515. -/
def State.packageRefusal (s : State) (b : Bytes) (nonce : Option Bytes) : Option Nat :=
  let t := leAt b 6 1
  if s.lcc.trans.isSome then some 5
  else match authority s.lc t with
    | none => some 1
    | some (maker, ka) =>
      if t = 4 ∧ s.killed = true then some 8
      else if !s.packageOk b maker ka nonce then some 2
      else s.transCheck t

/-- LC_TRANSITION: the package's checks, then programming begins (R512 to R516, R519). -/
def execLcTransition (inst : BitVec 8) (package : HostRead) (s : State) : Host.Outcome State Fault Refusal :=
  let i := inst.toNat
  .next (s.mbxRun i 0x31 fun p s =>
    match s.readBuf i (bufAddr p 0) (bufLen p 0) package with
    | (none, s) => s.answerMbx i 0x10 []
    | (some b, s) =>
      let nonce := s.lcc.nonce
      let t := leAt b 6 1
      let s := { s with lcc := { s.lcc with nonce := none } }
      match s.packageRefusal b nonce with
      | some r => (s.transRefused t r).answerMbx i (resultStatus r) [BitVec.ofNat 8 r]
      | none => match targetState t with
        | some x => (s.transBegin t x true b 0#64).takeMbx i
        | none =>
          let s := s.blowKill
          (s.noteRec 0x403 s.lcRec).answerMbx i 0x00 [0#8])

/-- RAW to TEST by a JTAG command that brings the serial number (R512, R515, R524). -/
def execRawTestTransition (serial : BitVec 64) (s : State) : Host.Outcome State Fault Refusal :=
  .next (if !s.debugEn.getLsbD 0 then s.raiseLcc 0
  else if s.lcc.trans.isSome then s.transRefused 1 5
  else if s.lc ≠ .raw then s.transRefused 1 1
  else match s.transCheck 1 with
    | some r => s.transRefused 1 r
    | none => s.transBegin 1 .test false [] serial)

/-! ## The phases of R516 -/

/-- Two fresh shares of a root (R403); none while no instance serves. -/
def State.drawRoot (s : State) : Option (Root × State) :=
  match s.draw with
  | none => none
  | some (x, s) => some ({ share0 := x.setWidth 256, share1 := (x >>> 256).setWidth 256 }, s)

/-- What the root and fuse step writes; none while a root cannot be drawn (R512, R521, R522). -/
def State.rootStep (s : State) (t : Trans) : Option State :=
  match t.target with
  | 1 => some { s with otp := { s.otp with serial := s.otp.serial ||| t.serial } }
  | 2 => s.drawRoot.map fun r => { r.2 with otp := { r.2.otp with krMfg := some r.1 } }
  | 3 => s.drawRoot.map fun r =>
      { r.2 with
        bbram := { r.2.bbram with krOwn := some r.1, valid := true }
        otp := { r.2.otp with
          cfg0 := r.2.otp.cfg0 ||| t.config, cfg1 := r.2.otp.cfg1 ||| t.config, cfg2 := r.2.otp.cfg2 ||| t.config
          pow0 := r.2.otp.pow0 ||| t.power, pow1 := r.2.otp.pow1 ||| t.power, pow2 := r.2.otp.pow2 ||| t.power
          kaDigest := r.2.otp.kaDigest ||| t.kaDigest, ownerDigest := r.2.otp.ownerDigest ||| t.ownerDigest } }
  | 4 => s.drawRoot.map fun r =>
      let e := r.2.eraseBbram
      { e with bbram := { e.bbram with krRma := some r.1, valid := true } }
  | _ => some s.eraseBbram

/-- Global beats that cover a number of microseconds. -/
def usBeats (us : Nat) : Nat := (us * 625 + 15) / 16

/-- The transition in progress moves to a phase that begins now. -/
def State.transPhase (s : State) (t : Trans) (p : Nat) : State :=
  { s with lcc := { s.lcc with trans := some { t with phase := p, since := s.g } } }

/-- The root and fuse step ends; copy A begins 100 µs after the checks (R516). -/
def execLcRootStepDone (s : State) : Host.Outcome State Fault Refusal :=
  .next (match s.lcc.trans with
  | some t =>
    if t.phase ≠ 2 then s
    else match s.rootStep t with
      | some s' => (s'.goTo (t.since + usBeats 100)).transPhase t 3
      | none => s
  | none => s)

/-- The reset that ends a transition: a tamper reset that waited is taken, else CAUSE 0x05 (R518, R531; log entry 44). -/
def State.transReset (s : State) : State :=
  let cause := match s.lcc.waitReset with
    | some 3 => 3 | some 4 => 4 | _ => 5
  let rec0 := s.lcRec
  (State.doReset { s with lcc := { s.lcc with trans := none, waitReset := none } } cause).noteRec 0x403 rec0

/-- A copy holds the target codeword. After copy A the hold-up reserve is checked again, and too little stops the LCC with
the old state in force (R516, R518). -/
def execLcCopyDone (s : State) : Host.Outcome State Fault Refusal :=
  .next (match s.lcc.trans with
  | none => s
  | some t =>
    let s' := s.goTo (t.since + fuseBeats t.n)
    match t.phase with
    | 3 =>
      let s' := { s' with otp := { s'.otp with lcA := s'.otp.lcA ||| t.code } }
      let s' := s'.goTo (s'.g + usBeats 1)
      if t.target ≠ 5 ∧ s.lcc.vhold < 50 * t.n + 900 then
        (State.raiseLcc { s' with lcc := { s'.lcc with result := 7 } } 2).transReset
      else s'.transPhase t 5
    | 5 => State.transPhase { s' with otp := { s'.otp with lcB := s'.otp.lcB ||| t.code } } t 6
    | 6 => State.transPhase { s' with otp := { s'.otp with lcC := s'.otp.lcC ||| t.code } } t 7
    | _ => s)

/-- The readback ends: the answer OK is written, and the device resets 1 ms later (R516, R518). -/
def execLcReadbackDone (s : State) : Host.Outcome State Fault Refusal :=
  .next (match s.lcc.trans with
  | none => s
  | some t =>
    if t.phase ≠ 7 then s
    else
      let s := s.goTo (t.since + usBeats 10)
      let s := { s with lcc := { s.lcc with result := 0, cntTrans := s.lcc.cntTrans + 1#32 } }
      let s := if t.viaMbx then s.landAnswer 0 0x00 [0#8] else s
      (s.goTo (s.g + usBeats 1000)).transReset)

/-! ## Loss of power or PERST_N during a transition (R517, R547) -/

/-- A codeword of which the first `k` missing bits, in ascending order, have been set (R516). -/
def partWord (old new : BitVec 64) (k : Nat) : Nat → BitVec 64 × Nat
  | 0 => (old, k)
  | n + 1 =>
    let r := partWord old new k n
    if new.getLsbD n && !old.getLsbD n && decide (0 < r.2) then (r.1 ||| BitVec.ofNat 64 (2 ^ n), r.2 - 1) else r

/-- The copies as they stand when a transition is cut now (R517); a deferred L4 response still zeroises (R519). -/
def State.cutTrans (s : State) : State :=
  match s.lcc.trans with
  | none => s
  | some t =>
    let k := (s.g - t.since) * 8 / 15625
    let w (old : BitVec 64) : BitVec 64 := (partWord old (old ||| t.code) k 64).1
    let o := match t.phase with
      | 3 => { s.otp with lcA := w s.otp.lcA }
      | 5 => { s.otp with lcB := w s.otp.lcB }
      | 6 => { s.otp with lcC := w s.otp.lcC }
      | _ => s.otp
    let s := { s with otp := o }
    if s.lcc.waitReset = some 4 then s.eraseBbram else s

/-! ## DEBUG_UNLOCK (R525) -/

/-- The scope a debug response asks for, where it passes (R525). -/
def State.debugScope (s : State) (b : Bytes) (nonce : Option Bytes) : Option (BitVec 3) :=
  let scope := leAt b 72 1
  let sc := BitVec.ofNat 3 scope
  if b.length = 4707 ∧ pkg b 0 32 = s.targetId ∧ nonce = some (pkg b 32 32) ∧ leAt b 64 8 = s.lc.word.toNat ∧ scope < 8
      ∧ allZero (pkg b 73 7) = true ∧ sc &&& ~~~s.debugAllowed = 0#3
      ∧ Config.makerVerify (ascii "AK-DEBUG") (pkg b 0 80) (pkg b 80 4627) = true
  then some sc else none

/-- DEBUG_UNLOCK sets the enables a passing response names; a failing one raises LCC_DEBUG_DENY (R525). -/
def execDebugUnlock (inst : BitVec 8) (response : HostRead) (s : State) : Host.Outcome State Fault Refusal :=
  let i := inst.toNat
  .next (s.mbxRun i 0x32 fun p s =>
    match s.readBuf i (bufAddr p 0) (bufLen p 0) response with
    | (none, s) => s.answerMbx i 0x10 []
    | (some b, s) =>
      let nonce := s.lcc.nonce
      let s := { s with lcc := { s.lcc with nonce := none } }
      match s.debugScope b nonce with
      | some sc => State.answerMbx { s with lcc := { s.lcc with granted := s.lcc.granted ||| sc } } i 0x00 [0#8]
      | none =>
        (State.raiseLcc { s with lcc := { s.lcc with cntDeny := s.lcc.cntDeny + 1#32 } } 0).answerMbx i 0x06 [2#8])

/-- An access through the JTAG port or to Supervisor debug: served while its enable is asserted, else it reads 0 and
raises LCC_DEBUG_DENY (R37, R524). What a served access does is outside the register map. -/
def execJtagAccess (supervisor : Bool) (s : State) : Host.Outcome State Fault Refusal :=
  .next (if s.debugEn.getLsbD (if supervisor then 2 else 0) then s else State.raiseLcc { s with rdata := 0#32 } 0)

end Sys2Proof.Machine
end

