-- ==== Sys2Proof/Machine/Boot.lean ====
section
/-!
DEFINITION. Power, PERST_N, firmware images and the phases of bring-up (R531 to R549, R520, R335, R568, R599). What a test
or a training finds comes from outside, as an operand.
-/
namespace Sys2Proof.Machine

/-! ## Power and PERST_N -/

/-- The rails fall: nothing on the main rails keeps its state, and DRAM loses its contents; a transition is cut (R517,
R532, R535, R568). -/
def State.powerLost (s : State) : State :=
  let s := s.cutTrans.deviceReset s.boot.cause
  { s with
    dram := [], alarm := false, evr := { s.evr with waiting := [] }
    boot := { s.boot with power := false, perst := true, phase := 0 }
    tmp := { s.tmp with resp := 0, active := [], battery := true, battPrev := 0#6 } }

/-- The main rails fall with VBAT present: battery operation (R568). -/
def execBatteryEnter (s : State) : Host.Outcome State Fault Refusal := .next (if s.boot.power then s.powerLost else s)

/-- The main rails reach power-good: the device resets with CAUSE 0x01 and leaves battery operation (R531, R568). -/
def execPowerOn (s : State) : Host.Outcome State Fault Refusal :=
  .next (if s.boot.power then s
  else
    let s := s.deviceReset 1
    { s with
      boot := { s.boot with power := true, perst := true, phase := 0 }
      evr := { s.evr with cycleDue := true }
      tmp := { s.tmp with battery := false, battPrev := 0#6, active := [] } })

/-- VBAT is lost while the main rails are down: the always-on domain and BBRAM lose what they hold (R566, R599, R606,
R651). -/
def execVbatLoss (s : State) : Host.Outcome State Fault Refusal :=
  .next (if s.boot.power then s
  else { s with
    tmp := Tmp.reset
    evr := { s.evr with lg := [], lgUsed := 0, lgDrop := 0, opsec := 0, subsec := 0, pcyc := 0 }
    boot := { s.boot with failsA := 0, failsB := 0 }
    bbram := Bbram.reset })

/-- PERST_N is asserted: a device reset that nothing defers (R518, R531, R547). -/
def execPerstNAssert (s : State) : Host.Outcome State Fault Refusal :=
  .next (if !s.boot.power || s.boot.perst then s
  else
    let s := s.cutTrans
    let s := State.deviceReset { s with tmp := { s.tmp with resp := if s.tmp.resp = 2 then 2 else 0 } } 2
    { s with boot := { s.boot with perst := true, phase := 0 } })

/-- PERST_N is released: the strap is sampled and phase 1 begins (R542, R645). -/
def execPerstNRelease (strap : BitVec 2) (s : State) : Host.Outcome State Fault Refusal :=
  .next (if !s.boot.power || !s.boot.perst then s
  else { s with boot := { s.boot with perst := false, strap := strap.toNat, phase := 1, startG := s.g, wdFrom := s.g } })

/-- The Manager writes SUP_CTRL.DEV_RESET (R549). -/
def execDevReset (key : BitVec 16) (s : State) : Host.Outcome State Fault Refusal :=
  .next (s.pfWrite fun s => if key = 0xD1E7#16 then s.askReset 8 else s.raiseHiu 11 0 0 0)

/-! ## Halt, lockstep, watchdog -/

/-- Bring-up runs and has not halted. -/
def State.booting (s : State) : Bool :=
  s.boot.power && !s.boot.perst && !s.boot.ready && !s.boot.halted

/-- Bring-up halts and drives FAULT_N low (R536, R543, R598). -/
def State.bootHalt (s : State) (code : Nat) : State :=
  let s := { s with boot := { s.boot with halted := true, haltCode := code }, faultPin := true }
  s.noteRec 0x402 [s.supBootStat]

/-- The fail count of the running slot rises by 1 (R539). -/
def Boot.failed (b : Boot) : Boot :=
  if b.image.isEmpty then b
  else if b.slot = 0 then { b with failsA := min 2 (b.failsA + 1) }
  else if b.slot = 1 then { b with failsB := min 2 (b.failsB + 1) }
  else b

/-- The two Supervisor cores disagree (R531, R547, R590). -/
def execLockstepDisagree (s : State) : Host.Outcome State Fault Refusal :=
  .next (if !s.boot.power || s.boot.perst then s
  else
    let s := if s.booting && decide (3 ≤ s.boot.phase) then { s with boot := s.boot.failed } else s
    (s.raise blkSup 0 0#32 0#32).askReset 6)

/-- The watchdog of 2 s expires; waiting for a root or reading a card does not count (R539). -/
def execWatchdogExpiry (s : State) : Host.Outcome State Fault Refusal :=
  .next (if !s.booting || s.boot.phase = 0 || s.boot.rootWait.isSome then s
  else
    let s := s.goTo (s.boot.wdFrom + 2 * beatsPerSec)
    State.askReset { s with boot := s.boot.failed } 7)

/-! ## Phases 1 and 2 -/

/-- Bring-up reaches a time after its start, in µs (R542). -/
def State.bootAt (s : State) (us : Nat) : State := s.goTo (s.boot.startG + usBeats us)

/-- The next phase on the Supervisor's path begins. -/
def State.bootPhase (s : State) (p : Nat) : State := { s with boot := { s.boot with phase := p } }

/-- All PLLs lock (R542). -/
def execPllLock (s : State) : Host.Outcome State Fault Refusal :=
  .next (if s.booting && s.boot.phase == 1 then (s.bootAt 500).bootPhase 2 else s)

/-- Phase 2: evidence moves (a full thermometer takes none), the OTP loads, and the life-cycle state is decoded; a parity error or SCRAP behaviour halts
(R511, R542, R543, R573). -/
def execOtpLoad (parityError : Bool) (s : State) : Host.Outcome State Fault Refusal :=
  .next (if !s.booting || s.boot.phase != 2 then s
  else
    let s := if s.tmp.evid = 0 then s
      else { s.moveEvidence with boot := { s.boot with evidenceMoved := decide (s.otp.evidence < 512) } }
    if parityError then (s.raiseLcc 4).bootHalt 2
    else
      let s := s.decodeFuses.bootAt 2000
      if s.lc = .scrap then s.bootHalt 6 else s.bootPhase 3)

/-! ## Beside the Supervisor's path -/

/-- Every SRAM is zero, with its parity written (R542). -/
def execSramClearDone (s : State) : Host.Outcome State Fault Refusal :=
  .next (if !s.booting || !s.lcc.decoded || s.boot.sramDone then s
  else
    let s := s.bootAt 7000
    { s with boot := { s.boot with sramDone := true } })

/-- Training of both DRAM channels ends; a failure halts (R542, R543, R590). -/
def execDramTrainingDone (ok0 ok1 : Bool) (gib0 gib1 speed : BitVec 8) (s : State) : Host.Outcome State Fault Refusal :=
  .next (if !s.booting || !s.lcc.decoded || s.boot.dramDone then s
  else
    let s := s.bootAt 42000
    let s := { s with gov := { s.gov with
      ok0 := ok0, ok1 := ok1, gib0 := if ok0 then gib0.toNat else 0, gib1 := if ok1 then gib1.toNat else 0
      speed := speed.toNat } }
    if ok0 && ok1 then { s with boot := { s.boot with dramDone := true } }
    else (s.raise blkMem 4 (at32 (b2n ok0) 0) 0#32).bootHalt 5)

/-! ## Images (R508, R537, R538) -/

/-- The life-cycle state accepts unsigned firmware and patches (R508). -/
def LcState.unsigned (x : LcState) : Bool := x == .raw || x == .test

/-- Header fields of an image (R537). -/
def imgVersion (b : Bytes) : Nat := leAt b 8 4
def imgSvn (b : Bytes) : Nat := leAt b 12 1
def imgBody (b : Bytes) : Bytes := (b.drop 4736).take (leAt b 16 4)

/-- Header and body of an image of a kind, whose SVN and body have the given bounds (R537). -/
def imageFormOk (b : Bytes) (kind svnMax bodyMax : Nat) : Bool :=
  leAt b 0 4 == 0x31464B41 && leAt b 4 2 == 1 && leAt b 6 1 == kind && leAt b 7 1 == 0 && decide (imgSvn b ≤ svnMax)
    && allZero ((b.drop 13).take 3) && decide (leAt b 16 4 ≤ bodyMax) && allZero ((b.drop 20).take 12)
    && allZero ((b.drop 4723).take 13) && decide (4736 + leAt b 16 4 ≤ b.length)
    && (b.drop 32).take 64 == sha3_512 (imgBody b)

/-- The Maker's signature verifies, or the state asks for none (R508, R537). -/
def State.imageSigned (s : State) (b : Bytes) : Bool :=
  s.lc.unsigned || Config.makerVerify (ascii "AK-FW") (b.take 96) ((b.drop 96).take 4627)

/-- Supervisor firmware that passes R538, its fail count aside. -/
def State.firmwareOk (s : State) (b : Bytes) : Bool :=
  imageFormOk b 1 64 0x100000 && s.imageSigned b && decide (s.otp.fwMin ≤ imgSvn b)

/-- A patch package that is valid but for its version (R335, R538). -/
def State.patchOk (s : State) (b : Bytes) : Bool := imageFormOk b 2 32 0x10000 && s.imageSigned b

/-- The slot chosen of those that qualify: higher SVN, then higher FW_VERSION, then A (R538); 3 for none. -/
def slotChoice (a b : Bytes) (okA okB : Bool) : Nat :=
  if okA && okB then
    if imgSvn b < imgSvn a then 0 else if imgSvn a < imgSvn b then 1
    else if imgVersion a < imgVersion b then 1 else 0
  else if okA then 0 else if okB then 1 else 3

/-- Phase 3: the boot ROM selects a slot; with none and no card it halts (R538, R540, R543). -/
def execSlotSelection (s : State) : Host.Outcome State Fault Refusal :=
  .next (if !s.booting || s.boot.phase != 3 || s.boot.slot != 0 || !s.boot.image.isEmpty then s
  else
    let a := s.nor.slotA
    let b := s.nor.slotB
    let okA := s.firmwareOk a
    let okB := s.firmwareOk b
    let want := slotChoice a b okA okB
    let use := slotChoice a b (okA && decide (s.boot.failsA < 2)) (okB && decide (s.boot.failsB < 2))
    let slot := if use = 3 then want else use
    let s := s.bootAt 18500
    let s := { s with boot := { s.boot with
      slot := slot, aValid := okA, bValid := okB
      aSvn := if okA then imgSvn a else 0, bSvn := if okB then imgSvn b else 0
      fallback := decide (slot ≠ want), image := if slot = 0 then a else if slot = 1 then b else [] } }
    if slot = 3 then (if s.sd.present then s else s.bootHalt 1) else s.bootPhase 4)

/-- Global beats that reading an image from a card takes: 4 bits at 25 MHz (R540). -/
def cardReadBeats (n : Nat) : Nat := (25 * n + 7) / 8

/-- The recovery image of a card is read and checked; the watchdog waits meanwhile (R539, R540, R543). -/
def execCardRecovery (image : HostRead) (s : State) : Host.Outcome State Fault Refusal :=
  .next (if !s.booting || s.boot.phase != 3 || s.boot.slot != 3 then s
  else match image with
    | .ok b =>
      let s := s.goTo (s.g + cardReadBeats b.length)
      let s := { s with boot := { s.boot with wdFrom := s.boot.wdFrom + cardReadBeats b.length } }
      if s.sd.present && s.firmwareOk b then State.bootPhase { s with boot := { s.boot with slot := 2, image := b } } 4
      else s.bootHalt 1
    | _ => s.bootHalt 1)

/-- Phase 4: the signature is checked and the Supervisor firmware starts (R537, R542). -/
def execImageSignatureCheck (s : State) : Host.Outcome State Fault Refusal :=
  .next (if !s.booting || s.boot.phase != 4 then s
  else
    let s := s.bootAt 26000
    if s.imageSigned s.boot.image then
      State.bootPhase { s with boot := { s.boot with
        fwVer := BitVec.ofNat 32 (imgVersion s.boot.image), svn := imgSvn s.boot.image } } 5
    else s.bootHalt 1)

/-! ## Phase 5: BBRAM, roots, BOOT_ID (R438, R520, R543) -/

/-- BBRAM is invalid, or the root of the state in force is missing (R517, R520). -/
def State.bbramLost (s : State) : Bool :=
  !s.bbram.valid || (s.lc == .owned && s.bbram.krOwn.isNone) || (s.lc == .rma && s.bbram.krRma.isNone)

/-- ENT cannot come to serve: a known-answer failure, or every source DISABLED (R543). -/
def State.entDead (s : State) : Bool := s.ent.katFail || (List.range 4).all fun n => (s.src n).st == .disabled

/-- BOOT_ID and the mesh register are drawn, or wait or come from the oscillator (R430, R543, R563; log entry 47). -/
def State.drawIds (s : State) : State :=
  match s.draw with
  | some (x, s) =>
    { s with keys := { s.keys with bootId := x.setWidth 64 }, tmp := { s.tmp with mesh := (x >>> 64).setWidth 31 } }
  | none =>
    { (s.useFree 1) with boot := { s.boot with bootIdDue := true }, tmp := { s.tmp with mesh := Config.meshNoise s.freeCtr } }

/-- BBRAM starts anew with a fresh root where the state has one; ERA advances (R438, R520). -/
def State.renewBbram (s : State) (r : Option Root) : State :=
  let own := if s.lc = .owned then r else none
  let rma := if s.lc = .rma then r else none
  let s := { s with
    bbram := { Bbram.reset with valid := true, eraSpent := s.bbram.eraSpent, krOwn := own, krRma := rma }
    boot := { s.boot with bbramLost := true } }
  let s := s.advanceEra.raiseKt 2 0 0
  if r.isSome then s.raiseLcc 3 else s

/-- The end of phase 5: the wait for a root did not count for the watchdog, the BOOT record is handed to the recorder
(R539, R598; log entry 48). -/
def State.phase5End (s : State) (ok : Bool) : State :=
  let s := s.drawIds.bootAt 27000
  let w := match s.boot.rootWait with | some g => s.g - g | none => 0
  let s := { s with keys := { s.keys with bbramOk := ok }, boot := { s.boot with rootWait := none, wdFrom := s.boot.wdFrom + w } }
  (s.noteRec 0x400 [s.supResetCause, s.lccStat, s.boot.fwVer]).bootPhase 6

/-- Phase 5 (R520, R542, R543). -/
def execBbramCheck (s : State) : Host.Outcome State Fault Refusal :=
  .next (if !s.booting || s.boot.phase != 5 then s
  else if !s.bbramLost then s.phase5End true
  else if s.lc = .owned ∨ s.lc = .rma then
    match s.drawRoot with
    | some (r, s) => (s.renewBbram (some r)).phase5End false
    | none =>
      if s.entDead then s.bootHalt 3
      else { s with boot := { s.boot with rootWait := some (s.boot.rootWait.getD s.g) } }
  else (s.renewBbram none).phase5End false)

/-! ## Phase 6: patches (R334, R335) -/

/-- The patch RAM a package's body fills, and its match registers (R335, R537). -/
def patchRam (body : Bytes) : Map (BitVec 160) :=
  (List.range 1024).foldl (fun m i => mset (fun _ => 0#160) m i (Config.patchWord body i)) []

/-- Every unit after a patch package has been broadcast and locked, or after ROM only (R334, R335). -/
def State.patchUnits (s : State) (b : Option Bytes) : State :=
  let ram := (b.map fun x => patchRam (imgBody x)).getD []
  let ver := (b.map fun x => imgVersion x % 65536).getD 0
  (List.range 32).foldl (fun s u =>
    let s := s.setMau u { s.mau u with patch := ram, patchVer := ver, locked := true }
    let s := s.setReg (0x400038 + 0x1000 * u) (at32 1 31 ||| at32 ver 0)
    match b with
    | none => s
    | some x => (List.range 16).foldl (fun s k =>
        s.setReg (0x400040 + 0x1000 * u + 4 * k) (Config.patchMatch (imgBody x) k &&& 0x8FFF03FF#32)) s) s

/-- Every unit goes out of service, its patch RAM locked (R334, R335). -/
def State.mausDown (s : State) : State :=
  (List.range 32).foldl (fun s u =>
    (s.setMau u { s.mau u with down := true, locked := true }).setReg (0x400038 + 0x1000 * u)
      (s.reg (0x400038 + 0x1000 * u) ||| 0x80000000#32)) s

/-- Phase 6 (R335, R542). -/
def execMauPatchLoad (s : State) : Host.Outcome State Fault Refusal :=
  .next (if !s.booting || s.boot.phase != 6 then s
  else
    let b := s.nor.patch
    let s := s.bootAt 36000
    let s := if s.patchOk b && decide (s.otp.patchMin ≤ imgSvn b) then
        let s := s.patchUnits (some b)
        { s with boot := { s.boot with patchSvn := imgSvn b } }
      else if s.otp.patchMin = 0 then s.patchUnits none
      else s.mausDown
    s.bootPhase 7)

/-! ## Phases 7 and 8 -/

/-- Phase 9 begins once phase 8 is reached and every cluster has its result (R542). -/
def State.clustersTested (s : State) : State :=
  if s.boot.phase == 8 && (List.range 16).all fun n => (s.cl n).selftest != 0xFF then (s.bootAt 175000).bootPhase 9 else s

/-- Phase 7, once DRAM is trained: a Sealing Unit or digest failure halts; a MAU that fails goes out of service (R542,
R543). -/
def execKnownAnswerTests (sealOk digestOk : Bool) (mauFail : BitVec 32) (s : State) : Host.Outcome State Fault Refusal :=
  .next (if !s.booting || s.boot.phase != 7 || !s.boot.dramDone then s
  else
    let s := s.bootAt 42000
    if !sealOk || !digestOk then s.bootHalt 4
    else
      let s := (List.range 32).foldl (fun s u =>
        if mauFail.getLsbD u then s.setMau u { s.mau u with down := true } else s) s
      State.clustersTested (State.bootPhase { s with boot := { s.boot with katDone := true } } 8))

/-- A cluster's self-test, which runs from the end of phase 5 on or after a cluster reset, ends with a result: 0 passed,
else the failing test (R102, R104, R542, R543). -/
def execClusterSelfTest (cluster : BitVec 4) (result : BitVec 8) (s : State) : Host.Outcome State Fault Refusal :=
  let c := cluster.toNat
  .next (if (s.cl c).selftest ≠ 0xFF ∨ result = 0xFF#8 ∨ (s.boot.ready = false ∧ s.booting = false)
      ∨ (s.boot.ready = false ∧ s.boot.phase < 6) then s
  else
    let s := s.setCl c { s.cl c with selftest := result.toNat }
    if s.boot.ready then s else s.clustersTested)

/-! ## Readiness (R545) -/

/-- The running slot's fail count is cleared (R539, R545). -/
def Boot.cleared (b : Boot) : Boot :=
  if b.slot = 0 then { b with failsA := 0 } else if b.slot = 1 then { b with failsB := 0 } else b

/-- Global beats of 10 s and 60 s (R405, R419). -/
abbrev firstSweep : Nat := 390625000
abbrev firstRemask : Nat := 2343750000

/-- READY: RWL fields lock, regions and mailboxes open, ADMIT_EN is set (R527, R545, R578, R598). -/
def State.becomeReady (s : State) : State :=
  let us := (s.g - s.boot.startG) * 16 / 625
  let s := { s with
    boot := { s.boot.cleared with ready := true, timeUs := BitVec.ofNat 32 (min us 0xFFFFFFFF) }
    budgetStart := s.g
    sch := { s.sch with periodStart := s.g / 4096 * 4096 }
    keys := { s.keys with sweepDue := s.g + firstSweep, remaskDue := s.g + firstRemask } }
  let s := s.setReg 0x100004 (s.reg 0x100004 ||| 1#32)
  let s := s.noteRec 0x401 [s.supBootStat, s.boot.timeUs]
  if s.tmp.battRec = 0#32 then s else s.raise blkTmp 11 0#32 0#32

/-- Phase 9 ends once the event recorder is restored (R542, R545). -/
def execReadiness (s : State) : Host.Outcome State Fault Refusal :=
  .next (if s.booting && s.boot.phase == 9 && s.boot.evrDone && s.boot.sramDone && s.boot.dramDone then
    (s.bootAt 178000).becomeReady else s)

/-! ## FW_COMMIT (R541) -/

/-- FW_COMMIT raises the OTP minimums to the running SVNs (R541, R574). -/
def execFwCommit (inst : BitVec 8) (s : State) : Host.Outcome State Fault Refusal :=
  let i := inst.toNat
  .next (s.mbxRun i 0x38 fun _ s =>
    if !s.otpFree then s
    else if s.lc = .raw ∨ s.lc = .test ∨ s.lc = .scrap ∨ s.boot.slot = 2 then s.answerMbx i 0x05 []
    else
      let fw := max s.otp.fwMin s.boot.svn
      let pt := max s.otp.patchMin s.boot.patchSvn
      let n := (fw - s.otp.fwMin) + (pt - s.otp.patchMin)
      let s := s.goTo (s.g + fuseBeats n)
      let s := { s with otp := { s.otp with fwMin := fw, patchMin := pt } }
      (s.noteRec 0x404 [s.supOtpMin]).answerMbx i 0x00 [BitVec.ofNat 8 fw, BitVec.ofNat 8 pt])

end Sys2Proof.Machine
end

