-- ==== Sys2Proof/Machine/Control.lean ====
section
/-!
DEFINITION. Control flow (R121 to R126) and words that are no instruction (R109).
-/
namespace Sys2Proof.Machine

/-- NOPN: issue nothing for N ec (R121). -/
def execNopn (id : EngId) (f : CF) (s : State) : Host.Outcome State Fault Refusal :=
  issueWord id (fun _ => { legal := f.zero == 0#20 && f.t == 0#12 && f.n != 0#20, interval := f.n.toNat })
    (onEngine id fun e => e) s

/-- WAITB: the next word issues at ec 0 of peal beat N (R125). -/
def execWaitb (id : EngId) (f : CF) (s : State) : Host.Outcome State Fault Refusal :=
  issueWord id
    (fun e => { legal := f.zero == 0#20 && f.t == 0#12 && decide (f.n.toNat ≤ 65535)
                interval := 32 * f.n.toNat - e.pealEc })
    (fun s =>
      let e := s.eng id.idx
      let last := match e.peal with | some p => p.len - 2 | none => 65535
      if 32 * f.n.toNat ≤ e.pealEc || last < f.n.toNat then .stop .timingHazard s else .done s) s

/-- JMP: continue at word T (R121). -/
def execJmp (id : EngId) (f : CF) (s : State) : Host.Outcome State Fault Refusal :=
  issueWord id (fun _ => { legal := f.zero == 0#20 && f.n == 0#20, target := some f.t.toNat })
    (onEngine id fun e => e) s

/-- CALL: push PC + 1 and continue at word T; a full return stack is illegal (R124). -/
def execCallSub (id : EngId) (f : CF) (s : State) : Host.Outcome State Fault Refusal :=
  issueWord id
    (fun e => { legal := f.zero == 0#20 && f.n == 0#20 && decide (e.rets.length < 4), target := some f.t.toNat })
    (onEngine id fun e => { e with rets := (e.pc + 1) :: e.rets }) s

/-- RET: pop the return stack and continue there; an empty stack is illegal (R124). -/
def execRet (id : EngId) (f : CF) (s : State) : Host.Outcome State Fault Refusal :=
  issueWord id
    (fun e => { legal := f.zero == 0#20 && f.t == 0#12 && f.n == 0#20 && !e.rets.isEmpty, target := e.rets.head? })
    (onEngine id fun e => { e with rets := e.rets.tail }) s

/-- LOOP: push (PC + 1, T, N) and continue (R122). -/
def execLoop (id : EngId) (f : CF) (s : State) : Host.Outcome State Fault Refusal :=
  issueWord id
    (fun e => { legal := f.zero == 0#20 && f.n != 0#20 && decide (e.pc < f.t.toNat) && decide (e.loops.length < 4)
                push := some { first := e.pc + 1, last := f.t.toNat, count := f.n.toNat } })
    (onEngine id fun e => e) s

/-- END: the peal's code ends; the engine issues nothing further (R126). -/
def execEndPeal (id : EngId) (f : CF) (s : State) : Host.Outcome State Fault Refusal :=
  issueWord id (fun _ => { legal := f.zero == 0#20 && f.t == 0#12 && f.n == 0#20 })
    (onEngine id fun e => { e with mode := .ended, endSeen := true }) s

/-- A word whose FMT is reserved or whose OPC its format does not define raises ILLEGAL_INSTR; a fetch beyond the code
length raises IMEM_RANGE (R56, R109). A word that is defined is no such word, and its own command issues it. -/
def execUndefinedWord (id : EngId) (word : BitVec 64) (s : State) : Host.Outcome State Fault Refusal :=
  let e := s.eng id.idx
  if (decodeWord id word).isSome && decide (e.pc < (e.resident.map (·.codeWords)).getD 0) then .next s
  else issueWord id (fun _ => { legal := false }) (onEngine id fun e => e) s

end Sys2Proof.Machine
end

