-- ==== Sys2Proof/Machine/Evr.lean ====
section
/-!
DEFINITION. The event recorder: records, the ring, checkpoints in the flash, the last-gasp file (R596 to R607), resets that
a route asks for (R595), and the fault registers' clears and forces (R587, R588).
-/
namespace Sys2Proof.Machine

/-! ## Records (R596) -/

/-- One bit step of CRC-16 with polynomial 0x1021. -/
def crc16Bit (c : Nat) : Nat := if c.testBit 15 then (c * 2 % 65536) ^^^ 0x1021 else c * 2 % 65536

/-- CRC-16 of a byte string from a running value (R596). -/
def crc16 (c : Nat) (b : Bytes) : Nat :=
  b.foldl (fun c x => crc16Bit (crc16Bit (crc16Bit (crc16Bit (crc16Bit (crc16Bit (crc16Bit (crc16Bit
    (c ^^^ (x.toNat * 256)))))))))) c

/-- A record: header, CRC and body (R596). -/
def recBytes (type flags seq opsec pcyc rep : Nat) (body : Bytes) : Bytes :=
  let h := natLe 2 type ++ natLe 1 body.length ++ natLe 1 flags ++ natLe 4 seq ++ natLe 4 opsec ++ natLe 3 pcyc ++ natLe 1 0
    ++ natLe 2 rep
  h ++ natLe 2 (crc16 0xFFFF (h ++ body)) ++ body

/-- The fields of a record that later steps read (R596). -/
def recType (r : Bytes) : Nat := leAt r 0 2
def recSeq (r : Bytes) : Nat := leAt r 4 4
def recRepeat (r : Bytes) : Nat := leAt r 16 2
def recBody (r : Bytes) : Bytes := r.drop 20

/-- A record's CRC passes (R604). -/
def recOk (r : Bytes) : Bool := leAt r 18 2 == crc16 0xFFFF (r.take 18 ++ recBody r)

/-- A record with another REPEAT, its CRC rewritten (R600). -/
def recWithRepeat (r : Bytes) (n : Nat) : Bytes :=
  let h := r.take 16 ++ natLe 2 n
  h ++ natLe 2 (crc16 0xFFFF (h ++ recBody r)) ++ recBody r

/-- The record an occurrence becomes, with its number. -/
def Evr.record (e : Evr) (o : Occurrence) (seq rep : Nat) (lastGasp : Bool) : Bytes :=
  recBytes o.type (o.flags + 8 * b2n lastGasp) seq o.opsec e.pcyc (min rep 0xFFFF) o.body

/-! ## The ring (R602) -/

/-- Bytes of the ring. -/
abbrev ringSize : Nat := 0x40000

/-- A record of the ring touches `n` bytes from `a` on, in or past the end. -/
def RingRec.hits (r : RingRec) (a n : Nat) : Bool :=
  (decide (r.off < a + n) && decide (a < r.off + r.len)) || (decide (ringSize ≤ a + n) && decide (r.off < a + n - ringSize))

/-- Drops the oldest records while one touches the space wanted, and counts those not yet checkpointed. -/
def dropOldest (a n : Nat) : List RingRec → Nat → List RingRec × Nat
  | [], lost => ([], lost)
  | r :: t, lost =>
    if (r :: t).any fun x => x.hits a n then dropOldest a n t (if r.dirty then lost + 1 else lost) else (r :: t, lost)

/-- Room for `n` bytes at the tail and one byte beyond it, so that a ring with records never has HEAD = TAIL (log entry
50); the number of records lost. -/
def Evr.makeRoom (e : Evr) (n : Nat) : Evr × Nat :=
  let d := dropOldest e.tail (n + 1) e.recs 0
  ({ e with recs := d.1, head := match d.1 with | r :: _ => r.off | [] => e.tail }, d.2)

/-- The PAD record, as far as it fits, and zeros to the ring's end (R598, R602). -/
def padBytes (n : Nat) : Bytes := padTo n (recBytes 0xFFFF 3 0 0 0 0 (List.replicate 4 0#8))

/-- Fills the ring to its end (R602). -/
def Evr.pad (e : Evr) : Evr × Nat :=
  let n := ringSize - e.tail
  let p := e.makeRoom n
  let e := p.1
  ({ e with
    ring := wrBytes e.ring e.tail (padBytes n)
    recs := e.recs ++ [{ off := e.tail, len := n, seq := 0, type := 0xFFFF, dirty := false, again := false }]
    head := if e.recs.isEmpty then e.tail else e.head
    tail := 0 }, p.2)

/-- Puts a record at the tail (R602). -/
def Evr.put (e : Evr) (r : Bytes) : Evr × Nat :=
  let p := if ringSize < e.tail + r.length then e.pad else (e, 0)
  let q := p.1.makeRoom r.length
  let e := q.1
  ({ e with
    ring := wrBytes e.ring e.tail r
    recs := e.recs ++ [{ off := e.tail, len := r.length, seq := recSeq r, type := recType r, dirty := true, again := false }]
    head := if e.recs.isEmpty then e.tail else e.head
    tail := (e.tail + r.length) % ringSize }, p.2 + q.2)

/-- The newest record of the ring, padding aside. -/
def Evr.newest (e : Evr) : Option RingRec := (e.recs.filter fun r => r.type != 0xFFFF).getLast?

/-- The bytes of a record of the ring. -/
def Evr.bytesOf (e : Evr) (r : RingRec) : Bytes := rdBytes e.ring r.off r.len

/-- The newest record takes a further REPEAT (R600, R607). -/
def Evr.setRepeat (e : Evr) (r : RingRec) (n : Nat) : Evr :=
  { e with
    ring := wrBytes e.ring r.off (recWithRepeat (e.bytesOf r) n)
    recs := e.recs.map fun x =>
      if x.off = r.off then { x with dirty := true, again := e.ckptBusy && decide (x.seq ≤ e.ckptUpTo) } else x }

/-! ## The last-gasp file (R605, R606) -/

/-- A record goes into the last-gasp file, or is counted. -/
def Evr.lastGasp (e : Evr) (r : Bytes) : Evr :=
  if e.lgUsed < 16 then { e with lg := wrBytes e.lg (0x60 * e.lgUsed) r, lgUsed := e.lgUsed + 1 }
  else { e with lgDrop := min 31 (e.lgDrop + 1) }

/-! ## Writing a waiting occurrence (R600 to R606) -/

/-- A new record in the ring; records lost raise EVR_LOST, and fatal and EPISODE records ask for a checkpoint (R602,
R603). -/
def State.putRecord (s : State) (o : Occurrence) (rep : Nat) : State :=
  let seq := (s.evr.seq + 1) % 2 ^ 32
  let r := s.evr.record o seq rep false
  let p := s.evr.put r
  let e := p.1
  let ask := o.flags % 4 == 2 || o.type == 0x405 || decide (65536 ≤ e.uncheckpointed)
  let e := { e with seq := seq, ckptReq := e.ckptReq || ask }
  let e := if o.type = sourceNum blkSup 2 ∧ e.norOk = false then e.lastGasp (e.record o seq rep true) else e
  let s := { s with evr := e }
  if p.2 = 0 then s else s.raise blkSup 3 0#32 (BitVec.ofNat 32 p.2)

/-- The recorder writes an occurrence: REPEAT of the newest record where it matches, else a new record; with the ring out
of use, into the last-gasp file (R600, R605, R606). -/
def State.writeRecord (s : State) (o : Occurrence) : State :=
  if !s.evr.ringOk then
    let seq := (s.evr.seq + 1) % 2 ^ 32
    { s with evr := { (s.evr.lastGasp (s.evr.record o seq o.rep true)) with seq := seq } }
  else match s.evr.newest with
    | some r =>
      let b := s.evr.bytesOf r
      if r.type = o.type ∧ (recBody b).take 4 = o.body.take 4 ∧ recRepeat b < 0xFFFF then
        let n := recRepeat b + 1 + o.rep
        let e := s.evr.setRepeat r (min n 0xFFFF)
        let s := { s with evr := { e with ckptReq := e.ckptReq || decide (65536 ≤ e.uncheckpointed) } }
        if n ≤ 0xFFFF then s else s.putRecord o (n - 0x10000)
      else s.putRecord o o.rep
    | none => s.putRecord o o.rep

/-- The ring is out of use until the next device reset (R605). -/
def State.ringFails (s : State) (addr : W32) : State :=
  { s with evr := { s.evr with ringOk := false } }.raise blkSup 2 1#32 addr

/-- Checkpointing is out of use until the next device reset (R605). -/
def State.norFails (s : State) (addr : W32) : State :=
  { s with evr := { s.evr with norOk := false, ckptBusy := false } }.raise blkSup 2 2#32 addr

/-- The recorder takes the occurrence that waits longest, once the ring is restored; a parity error it meets puts the
ring out of use first (R601, R605). -/
def execEvrRecordWrite (ringParity : Option (BitVec 18)) (s : State) : Host.Outcome State Fault Refusal :=
  .next (if !s.evr.restored then s
  else match s.evr.waiting with
    | [] => s
    | o :: t =>
      let s := { s with evr := { s.evr with waiting := t } }
      let s := match ringParity with
        | some a => if s.evr.ringOk then s.ringFails (a.setWidth 32) else s
        | none => s
      s.writeRecord o)

/-! ## Checkpoints (R603, R604) -/

/-- Global beats of the checkpoint period (R603, R610). -/
def State.ckptPeriod (s : State) : Nat := fld (s.reg 0xB00004) 0 8 * 60 * beatsPerSec

/-- A checkpoint starts: at once where one is asked for, else when its period ends (R603). -/
def execCheckpointStart (s : State) : Host.Outcome State Fault Refusal :=
  .next (if !s.evr.restored || !s.evr.norOk || s.evr.ckptBusy then s
  else
    let s := if s.evr.ckptReq then s else s.goTo (s.evr.lastCkpt + s.ckptPeriod)
    { s with evr := { s.evr with ckptBusy := true, ckptReq := false, lastCkpt := s.g, ckptUpTo := s.evr.seq } })

/-- Appends a record to the checkpoint region: 32 sectors of 64 KiB, written in order, the oldest erased for the next
(R603). -/
def norAppend (l : List (List Bytes)) (r : Bytes) : List (List Bytes) :=
  let used (x : List Bytes) : Nat := x.foldl (fun n b => n + b.length) 0
  match l.getLast? with
  | some x =>
    if used x + r.length ≤ 65536 then l.dropLast ++ [x ++ [r]]
    else (if l.length < 32 then l else l.drop 1) ++ [[r]]
  | none => [[r]]

/-- The CHECKPOINT record (R598). -/
def Evr.checkpointRec (e : Evr) : Bytes :=
  recBytes 0x406 3 e.seq e.opsec e.pcyc 0 (natLe 4 e.opsec ++ natLe 4 e.pcyc ++ natLe 4 e.seq)

/-- The records that the running checkpoint appends. -/
def Evr.inCkpt (e : Evr) (r : RingRec) : Bool := r.dirty && decide (r.seq ≤ e.ckptUpTo)

/-- A checkpoint ends: its records and the CHECKPOINT record stand in the flash, or a flash failure stops checkpointing
(R603, R605, R607). -/
def execCheckpointDone (norFail : Option (BitVec 32)) (s : State) : Host.Outcome State Fault Refusal :=
  .next (if !s.evr.ckptBusy then s
  else match norFail with
    | some a => s.norFails a
    | none =>
      let e := s.evr
      let app := (e.recs.filter e.inCkpt).map e.bytesOf
      { s with
        nor := { s.nor with ckpt := (app ++ [e.checkpointRec]).foldl norAppend s.nor.ckpt }
        evr := { e with
          ckptBusy := false
          recs := e.recs.map fun r => if e.inCkpt r then { r with dirty := r.again, again := false } else r } })

/-- The records of the checkpoint region whose CRC passes, oldest first. -/
def Nor.records (n : Nor) : List Bytes := n.ckpt.flatten.filter recOk

/-- The latest copy of each record of the ring, by SEQ (R604). -/
def Nor.ringRecords (n : Nor) : List (Nat × Bytes) :=
  (n.records.filter fun r => recType r < 0x406).foldl (fun m r => mset (fun _ => []) m (recSeq r) r) []

/-- The newest records that fit the ring (R604). -/
def newestFit : List (Nat × Bytes) → Nat → List Bytes → List Bytes
  | [], _, acc => acc
  | r :: t, room, acc => if r.2.length < room then newestFit t (room - r.2.length) (r.2 :: acc) else acc

/-- The ring as a list of records fills it from offset 0 (R604). -/
def Evr.rebuild (e : Evr) : List Bytes → Evr
  | [] => e
  | r :: t =>
    Evr.rebuild { e with
      ring := wrBytes e.ring e.tail r
      recs := e.recs ++ [{ off := e.tail, len := r.length, seq := recSeq r, type := recType r, dirty := false, again := false }]
      tail := e.tail + r.length, seq := recSeq r } t

/-- The counts after bring-up: the greater of the always-on value and the newest CHECKPOINT record's; a power-on adds 1 to
PCYC (R599). -/
def State.restoreCounts (s : State) : State :=
  let c := ((s.nor.records.filter fun r => recType r == 0x406).getLast?).getD []
  let p := max s.evr.pcyc (leAt c 24 4)
  { s with evr := { s.evr with
    opsec := max s.evr.opsec (leAt c 20 4), pcyc := if s.evr.cycleDue then min 0xFFFFFF (p + 1) else p
    cycleDue := false } }

/-- PCYC after a bring-up that cannot read the flash (R599). -/
def State.countCycle (s : State) : State :=
  if s.evr.cycleDue then { s with evr := { s.evr with pcyc := min 0xFFFFFF (s.evr.pcyc + 1), cycleDue := false } } else s

/-- The restore phase has ended. -/
def State.evrStarted (s : State) : State :=
  { s with boot := { s.boot with evrDone := true }, evr := { s.evr with restored := true, lastCkpt := s.g } }

/-- The ring as the checkpoint region gives it (R604). -/
def State.restoreRing (s : State) : State :=
  { s with evr := s.evr.rebuild (newestFit s.nor.ringRecords.reverse ringSize []) }

/-- The recorder rebuilds its ring at bring-up, or the flash cannot be read (R542, R604, R605). -/
def execEvrRestore (norFail : Option (BitVec 32)) (s : State) : Host.Outcome State Fault Refusal :=
  .next (if !s.booting || decide (s.boot.phase < 6) || s.boot.evrDone then s
  else
    let s := (s.bootAt 59000).evrStarted
    match norFail with
    | some a => s.countCycle.norFails a
    | none => s.restoreCounts.restoreRing)

/-- A write of EVR_CTRL.CKPT_NOW (R603). -/
def State.askCkpt (s : State) : State := { s with evr := { s.evr with ckptReq := s.evr.norOk } }
def execCkptNow (s : State) : Host.Outcome State Fault Refusal := .next (s.pfWrite State.askCkpt)

/-- A write of EVR_CTRL.LG_CLEAR (R606). -/
def State.clearLg (s : State) : State := { s with evr := { s.evr with lg := [], lgUsed := 0, lgDrop := 0 } }
def execLgClear (s : State) : Host.Outcome State Fault Refusal := .next (s.pfWrite State.clearLg)

/-! ## Resets that a route asks for (R595) -/

/-- The source's record stands in the ring and in a completed checkpoint. -/
def Evr.saved (e : Evr) (g : Nat) : Bool :=
  !(e.waiting.any fun o => o.type == g) && e.recs.any (fun r => r.type == g) && !(e.recs.any fun r => r.type == g && r.dirty)

/-- The device resets with CAUSE 0x09 once the source's record is checkpointed, or 100 ms after the raise (R595). -/
def execRouteReset (s : State) : Host.Outcome State Fault Refusal :=
  .next (match s.evr.resetWait with
  | [] => s
  | (g, due) :: t =>
    let s := if s.evr.saved g then s else s.goTo due
    State.askReset { s with evr := { s.evr with resetWait := t } } 9)

/-! ## FSTAT and FFORCE (R587, R588) -/

/-- Clears FSTAT bits of a block; the recorded source's bit takes VALID and FMERGE with it (R587). -/
def State.fstatClear (s : State) (blk : Nat) (w : W32) : State :=
  let f := s.fault blk
  let src := fld f.fsyn0 (sourceShift blk) (31 - sourceShift blk)
  let own := bit32 f.fsyn0 31 && bit32 w src
  s.setFault blk { f with
    fstat := f.fstat &&& ~~~w
    fsyn0 := if own then f.fsyn0 &&& 0x7FFFFFFF#32 else f.fsyn0
    fmerge := if own then 0 else f.fmerge }

/-- The number of fault blocks. -/
abbrev blkCount : Nat := 58

/-- Writing 1 to FSTAT bits of a block (R587). -/
def execFstatClear (block : BitVec 6) (mask : BitVec 32) (s : State) : Host.Outcome State Fault Refusal :=
  .next (s.pfWrite fun s => if block.toNat < blkCount then s.fstatClear block.toNat mask else s)

/-- The level a forced TMP source acts at; none for those without one (R575, R577, R578; log entry 51). -/
def Tmp.forceLevel (t : Tmp) (b : Nat) : Option Nat :=
  match b with
  | 0 => some (t.glitchLevel 0) | 1 => some (t.slowLevel 0) | 2 => some (fld t.lvlEnv 0 3) | 3 => some (fld t.lvlEnv 3 3)
  | 4 => some (fld t.lvlEnv 6 3) | 5 => some (fld t.lvlEnv 9 3) | 6 => some (fld t.lvlEnv 12 3)
  | 7 => some (t.inLevel 0) | 8 => some (t.inLevel 4) | 9 => some 4
  | 10 => some (max 3 (fld t.lvlEnv 15 3)) | 12 => some (max 3 (fld t.lvlEnv 15 3))
  | _ => none

/-- A channel loses training (R590, R662). -/
def State.chLost (s : State) (ch : Bool) : State :=
  { s with gov := if ch then { s.gov with ok1 := false } else { s.gov with ok0 := false } }

/-- A fatal source takes its block out of service (R106, R466, R507, R588, R590). -/
def State.fatalEffect (s : State) (blk b : Nat) : State :=
  if blk < 16 then (if 20 ≤ b ∧ b ≤ 22 then s.clusterFatal blk else s)
  else if blk = blkEnt ∧ b = 6 then
    State.entHalt { s with ent := { s.ent with katOk := false, katFail := true } }
  else if blk = blkDma ∧ b = 15 then
    let s := ((List.range 16).filter fun n => (s.ch n).active).foldl (fun s n => s.setCh n { s.ch n with st := .halted, cause := 4 }) s
    { s with dma := { s.dma with dead := true } }
  else if blk = blkMem ∧ b = 4 then s.chLost false
  else if blk = blkSup ∧ b = 0 then s.askReset 6
  else s

/-- One source of a block is forced: raised with zero details, recorded as FORCED (R588). -/
def State.forceOne (s : State) (blk b : Nat) : State :=
  if blk = blkTmp then
    match s.tmp.forceLevel b with
    | some lv => s.tmpAlarm b 0 lv 0#32 true
    | none => s.raiseWith blkTmp b 0#32 0#32 true
  else (s.raiseWith blk b 0#32 0#32 true).fatalEffect blk b

/-- Writing 1 to FFORCE bits of a block, in ascending bit order (R588, R601). -/
def State.force (s : State) (blk : Nat) (w : W32) : State :=
  ((List.range (sourceCount blk)).filter fun b => bit32 w b).foldl (fun s b => s.forceOne blk b) s

/-- A write of a block's FFORCE (R588). -/
def execFforce (block : BitVec 6) (mask : BitVec 32) (s : State) : Host.Outcome State Fault Refusal :=
  .next (s.pfWrite fun s => if block.toNat < blkCount then s.force block.toNat mask else s)

/-- A DRAM channel loses training during operation (R590). -/
def execDramTrainingLost (ch : Bool) (s : State) : Host.Outcome State Fault Refusal :=
  .next (if s.boot.dramDone then (s.chLost ch).raise blkMem 4 (at32 (b2n ch) 0) 0#32 else s)

/-! ## Pins and pending bits (R591, R592, R594) -/

/-- The FSTAT bit of a source. -/
def State.fstatBit (s : State) (g : Nat) : Bool := let p := sourceOf g; bit32 (s.fault p.1).fstat p.2

/-- ALERT_N is driven low (R592, R594). -/
def State.alertLow (s : State) : Bool := (List.range 560).any fun g => bit32 (s.route g) 2 && s.fstatBit g

/-- EVR_PEND(k) (R591). -/
def State.pend (s : State) (k : Nat) : W32 :=
  BitVec.ofNat 32 (((List.range 32).map fun j => if 32 * k + j < 560 then b2n (s.fstatBit (32 * k + j)) * 2 ^ j else 0).foldl (· + ·) 0)

end Sys2Proof.Machine
end

