-- ==== Sys2Proof/Machine/Governor.lean ====
section
/-!
DEFINITION. The board power limit and the governor (R35, R36, R185, R645 to R648), and the hold-up reserve (R649).
-/
namespace Sys2Proof.Machine

/-- The strap's limit in W; 0 for none (R645). -/
def strapLimit (n : Nat) : Nat := [0, 60, 45, 30].getD n 0

/-- OTP POWER_LIMIT as loaded (R522, R646). -/
def State.otpLimit (s : State) : Nat := if s.lcc.decoded then s.otp.power else 0

/-- MEM_PWR_CTRL.LIMIT (R662). -/
def State.softLimit (s : State) : Nat := fld (s.reg 0xE00010) 0 8

/-- The least non-zero of two limits, 0 meaning none. -/
def minLimit (a b : Nat) : Nat := if a = 0 then b else if b = 0 then a else min a b

/-- The limit in force, in W (R646). -/
def State.powerLimit (s : State) : Nat :=
  let m := minLimit (minLimit (strapLimit s.boot.strap) s.otpLimit) s.softLimit
  if m = 0 then 78 else m

/-- The first of strap, OTP and software that gives the limit in force; 0 for none (R662). -/
def State.limitSrc (s : State) : Nat :=
  let m := s.powerLimit
  if strapLimit s.boot.strap = m then 1 else if s.otpLimit = m then 2 else if s.softLimit = m then 3 else 0

/-- A cluster's step changes at its next local beat boundary: the reference pair is latched again (R87, R185), and what is
left of a wake or of the gating beats goes on at the new step (R84). -/
def Cluster.setStep (k : Cluster) (g step : Nat) : Cluster :=
  let b := k.localOf g
  let b := if k.globalOf b < g then b + 1 else b
  let at_ := k.globalOf b
  let was := capRatio k.capStep
  let now := capRatio step
  let left := k.vpwrDue - at_
  { k with
    gRef := at_, bRef := b, capStep := step
    vpwrDue := if (k.vpwr == .waking || k.vpwr == .gating) && decide (at_ < k.vpwrDue) then
      at_ + (left * now.1 * was.2 + now.2 * was.1 - 1) / (now.2 * was.1) else k.vpwrDue }

/-- The highest-numbered cluster at a step. -/
def State.topAt (s : State) (step : Nat) : Option Nat := ((List.range 16).filter fun c => (s.cl c).capStep == step).getLast?

/-- The governor's next action; none when every one has been taken (R36). -/
def State.nextAct (s : State) : Option GovAct :=
  match s.topAt 0 with
  | some c => some (.step c)
  | none => match s.topAt 1 with
    | some c => some (.step c)
    | none => if !s.sch.holdBulk then some .bulk else if !s.sch.holdNormal then some .normal else none

/-- An action is taken, or undone (R36, R648). -/
def State.doAct (s : State) (a : GovAct) (undo : Bool) : State :=
  match a with
  | .step c => s.setCl c ((s.cl c).setStep s.g (if undo then (s.cl c).capStep - 1 else (s.cl c).capStep + 1))
  | .bulk => { s with sch := { s.sch with holdBulk := !undo } }
  | .normal => { s with sch := { s.sch with holdNormal := !undo } }

/-- An evaluation with a demand in units of 0.01 W: above the limit one action is taken (R647); at or below 90 % of it the
time of R648 runs. -/
def execGovernorEvaluation (demand : BitVec 16) (s : State) : Host.Outcome State Fault Refusal :=
  let d := demand.toNat
  .next (if !s.boot.power || s.boot.perst then s
  else
    let lim := s.powerLimit
    let low := if d * 10 ≤ 900 * lim then some (s.gov.lowSince.getD s.g) else none
    let s := { s with gov := { s.gov with demand := d, lowSince := low } }
    if d ≤ 100 * lim then s
    else match s.nextAct with
      | some a => State.doAct { s with gov := { s.gov with acts := a :: s.gov.acts } } a false
      | none => s)

/-- After 1 ms at or below 90 % of the limit the latest action is undone (R648). -/
def execGovernorRelease (s : State) : Host.Outcome State Fault Refusal :=
  .next (match s.gov.lowSince, s.gov.acts with
  | some g0, a :: t =>
    let s := s.goTo (g0 + msBeats 1)
    State.doAct { s with gov := { s.gov with acts := t, lowSince := some s.g } } a true
  | _, _ => s)

/-- A write of MEM_PWR_CTRL.LIMIT (R646). -/
def execPowerLimitWrite (limit : BitVec 8) (s : State) : Host.Outcome State Fault Refusal :=
  .next (s.pfWrite fun s => s.setReg 0xE00010 (limit.setWidth 32))

/-- The hold-up reserve is sampled, in µs, holding at 16,000 (R649). -/
def execVholdSample (reserve : BitVec 16) (s : State) : Host.Outcome State Fault Refusal :=
  .next (if s.boot.power then { s with lcc := { s.lcc with vhold := min 16000 reserve.toNat } } else s)

end Sys2Proof.Machine
end

