-- ==== Sys2Proof/Machine/Hamper.lean ====
section
/-!
DEFINITION. Migration by hamper (R389 to R394). The spec names what the body carries and not its layout, which is the
model's own (log entry 23).
-/
namespace Sys2Proof.Machine

/-- A refused hamper command: its status, and HIU_HAMPER_REFUSED. -/
def State.refuseHamper (s : State) (i j status : Nat) : State := (s.raiseHiu 27 j 0 0).answerMbx i status []

/-- The target's conditions: FROZEN, every queue DISABLED, no key-table entry (R389). -/
def State.targetOk (s : State) (j : Nat) : Bool :=
  (s.inst j).st == .frozen && ((List.range 16).all fun q => (s.queue j q).st == .disabled) && s.usedCount j == 0

/-- The nonce held for an instance. -/
def State.nonceOf (s : State) (j : Nat) : Option Bytes := (s.bbram.nonces.find? fun n => n.inst == j).map (·.val)

/-- HAMPER_PREPARE (R389). -/
def execHamperPrepare (inst : BitVec 8) (s : State) : Host.Outcome State Fault Refusal :=
  let i := inst.toNat
  .next (s.mbxRun i 0x10 fun p s =>
    let j := leAt p 0 1
    if !s.targetOk j then s.refuseHamper i j 0x05
    else if (s.nonceOf j).isNone && decide (4 ≤ s.bbram.nonces.length) then s.refuseHamper i j 0x0B
    else if s.ent.mode == .halted then s.deniedDraw.answerMbx i 0x07 []
    else match s.draw with
      | none => s
      | some (x, s) =>
        let v := natLe 32 x.toNat
        let s := s.dropNonce j
        let b := { s.bbram with nonces := s.bbram.nonces ++ [{ inst := j, val := v }] }
        State.answerMbx { s with bbram := b } i 0x00 (s.targetId ++ v))

/-! ## The body -/

/-- QP_STAT.STATE (R400). -/
def QState.code : QState → Nat
  | .disabled => 0 | .running => 1 | .stalled => 2 | .halted => 3 | .draining => 4

/-- The state of a code. -/
def QState.ofCode (n : Nat) : QState :=
  match n with
  | 1 => .running | 2 => .stalled | 3 => .halted | 4 => .draining | _ => .disabled

/-- An index that may be absent. -/
def optIdx (o : Option (BitVec 16)) : Bytes :=
  match o with
  | some v => natLe 1 1 ++ natLe 2 v.toNat
  | none => natLe 3 0

/-- A waiting completion, 24 bytes. -/
def cplRecord (c : Cpl) : Bytes :=
  natLe 2 c.index.toNat ++ natLe 1 c.status ++ natLe 1 c.opcode ++ natLe 1 c.cflags ++ natLe 4 c.outBytes
    ++ natLe 4 c.okey0 ++ natLe 4 c.okey1 ++ natLe 4 c.count ++ natLe 1 (b2n c.here) ++ natLe 2 (b2n c.ownPlace)

/-- A queue: configuration, state, indices, recorded doorbells, counts, batch errors, waiting completions. -/
def State.queueRecord (s : State) (i q : Nat) : Bytes :=
  let x := s.queue i q
  natLe 4 (s.reg (qpReg i q)).toNat ++ natLe 8 (s.sqBase i q) ++ natLe 8 (s.cqBase i q) ++ natLe 1 x.st.code
    ++ natLe 1 x.haltCause ++ natLe 1 (b2n x.cfgErr) ++ natLe 2 x.sqTail.toNat ++ natLe 2 x.sqHead.toNat
    ++ natLe 2 x.cqTail.toNat ++ natLe 2 x.cqHead.toNat ++ natLe 2 x.batchFrom.toNat ++ optIdx x.recSq ++ optIdx x.recCq
    ++ natLe 4 x.cntDone.toNat ++ natLe 4 x.cntDiscard.toNat ++ natLe 2 x.batchErr.length
    ++ (x.batchErr.flatMap fun e => natLe 2 e.toNat) ++ natLe 2 x.ready.length ++ x.ready.flatMap cplRecord

/-- The entries an instance owns, with their slots. -/
def State.ownedEntries (s : State) (i : Nat) : List (Nat × KeySlot) :=
  s.keys.slots.filter fun e => decide (256 ≤ e.1) && e.2.owner == i && e.2.live

/-- What a carried entry says of its reservation counter: 0 none, 1 alive, 2 gone (R287, R392). -/
def State.ctrKind (s : State) (slot : Nat) : Nat :=
  if (s.slot slot).rctr = 0xFFFF then 0 else if s.ctrAlive slot then 1 else 2

/-- A carried entry: 40 bytes, then its key unless it is LOST. -/
def State.entryRecord (s : State) (slot : Nat) (key : Bytes) : Bytes :=
  let k := s.slot slot
  natLe 4 (s.handleOf slot) ++ natLe 4 k.parent ++ natLe 1 k.type ++ natLe 1 k.set ++ natLe 1 k.st.code
    ++ natLe 1 (s.ctrKind slot) ++ natLe 4 k.attr.toNat ++ natLe 4 k.klen ++ natLe 2 k.rctr ++ natLe 4 (s.ctr k.rctr).limit
    ++ natLe 2 k.height ++ natLe 2 k.tset ++ natLe 2 k.tn ++ natLe 2 k.chain ++ natLe 4 k.fbytes ++ natLe 2 k.nbytes ++ key

/-- The records of the entries of a list; a key that cannot be read ends the command with its status (R432). -/
def State.entryRecords (s : State) (i : Nat) : List (Nat × KeySlot) → List HostRead → Bytes → (Bytes ⊕ Nat) × State
  | [], _, acc => (.inl acc, s)
  | e :: t, recs, acc =>
    if e.2.st == .lost then s.entryRecords i t recs (acc ++ s.entryRecord e.1 [])
    else
      let r := s.hostRec i e.1 (recs.headD .busError)
      match r.2.readKey e.1 r.1 with
      | .fail st s => (.inr st, s)
      | .ok key s => s.entryRecords i t (if e.2.loc = 2 then recs.drop 1 else recs) (acc ++ s.entryRecord e.1 key)

/-- The hamper key (R390). -/
def hamperKey (source target nonce : Bytes) : BitVec 256 :=
  kmac256 Config.migrationKey (source ++ target ++ nonce) (ascii "AK-HAMPER")

/-- Bytes 0 to 127 of a hamper (R391). -/
def hamperHeader (i count len : Nat) (source target nonce : Bytes) (iv : BitVec 96) : Bytes :=
  natLe 4 0x31484B41 ++ natLe 2 1 ++ natLe 1 i ++ natLe 1 0 ++ source ++ target ++ nonce ++ natLe 4 count ++ natLe 4 len
    ++ natLe 12 iv.toNat ++ natLe 4 0

/-- The instance enters SAVED: its entries are destroyed and its queues disabled (R384, R390). -/
def State.enterSaved (s : State) (j : Nat) : State :=
  let x := s.inst j
  let qs := mmap dfltQueue (fun _ q => { q with
    st := .disabled, ready := [], recSq := none, recCq := none, recBad := [], ahead := [] }) x.queues
  let s := x.queues.foldl (fun s e => s.freeCpls e.2.ready) s
  let s := s.setInst j { s.inst j with st := .saved, queues := qs, restored := false }
  (s.destroyAll (s.ownedSlots j)).freeCtxs j

/-- HAMPER_SAVE (R390, R391); `records` are the records of its keys in host memory, in slot order. -/
def execHamperSave (inst : BitVec 8) (records : List HostRead) (s : State) : Host.Outcome State Fault Refusal :=
  let i := inst.toNat
  .next (s.mbxRun i 0x11 fun p s =>
    let j := leAt p 0 1
    let target := (p.drop 1).take 32
    let nonce := (p.drop 33).take 32
    if j = 0 ∨ (s.inst j).st ≠ .frozen then s.refuseHamper i j 0x05
    else
      let es := s.ownedEntries j
      let qs := (List.range 16).flatMap fun q => s.queueRecord j q
      match s.entryRecords j es records (qs ++ natLe 1 (s.inst j).mbx.seq) with
      | (.inr st, s) => s.answerMbx i st []
      | (.inl body, s) =>
        let len := 144 + body.length
        if bufLen p 65 < len then s.answerMbx i 0x0A (natLe 4 len)
        else if !s.windowOk i (bufAddr p 65) len true then (s.windowMiss i 0).answerMbx i 0x10 []
        else match s.takeIv with
          | none => s.answerMbx i 0x07 []
          | some (iv, s) =>
            let h := hamperHeader j es.length body.length s.targetId target nonce iv
            let sealed := padTo (body.length + 16) (gcmSeal (hamperKey s.targetId target nonce) iv h body)
            ((s.hostWrite (bufAddr p 65) (h ++ sealed)).enterSaved j).answerMbx i 0x00 (natLe 4 len))

/-! ## Restoring -/

/-- Reads a waiting completion. -/
def readCpl (b : Bytes) : Cpl where
  index := BitVec.ofNat 16 (leAt b 0 2)
  status := leAt b 2 1
  opcode := leAt b 3 1
  cflags := leAt b 4 1
  outBytes := leAt b 5 4
  okey0 := leAt b 9 4
  okey1 := leAt b 13 4
  count := leAt b 17 4
  here := leAt b 21 1 == 1
  ownPlace := leAt b 22 2 == 1
  frees := []

/-- Reads an index that may be absent. -/
def readIdx (b : Bytes) (o : Nat) : Option (BitVec 16) := if leAt b o 1 = 1 then some (BitVec.ofNat 16 (leAt b (o + 1) 2)) else none

/-- A queue of the body: the bytes it takes, its register words and its state. -/
def readQueue (b : Bytes) : Nat × Nat × Nat × Nat × Queue :=
  let idx (o : Nat) : BitVec 16 := BitVec.ofNat 16 (leAt b o 2)
  let ne := leAt b 47 2
  let o := 49 + 2 * ne
  let nr := leAt b o 2
  (o + 2 + 24 * nr, leAt b 0 4, leAt b 4 8, leAt b 12 8,
   { Queue.reset with
     st := QState.ofCode (leAt b 20 1), haltCause := leAt b 21 1, cfgErr := leAt b 22 1 == 1, sqTail := idx 23
     sqHead := idx 25, cqTail := idx 27, cqHead := idx 29, batchFrom := idx 31, recSq := readIdx b 33, recCq := readIdx b 36
     cntDone := BitVec.ofNat 32 (leAt b 39 4), cntDiscard := BitVec.ofNat 32 (leAt b 43 4)
     batchErr := (List.range ne).map fun k => idx (49 + 2 * k)
     ready := (List.range nr).map fun k => readCpl (b.drop (o + 2 + 24 * k)) })

/-- Restores `n` queues from the body; what is left of it follows. Handles of output keys take their new values. -/
def State.restoreQueues (s : State) (j : Nat) (newH : Nat → Nat) : Nat → Nat → Bytes → State
  | 0, _, _ => s
  | n + 1, q, b =>
    let r := readQueue b
    let a := qpReg j q
    let s := ((s.setReg a (BitVec.ofNat 32 r.2.1)).setReg (a + 0x08) (BitVec.ofNat 32 r.2.2.1)).setReg (a + 0x0C)
      (BitVec.ofNat 32 (r.2.2.1 / 2 ^ 32))
    let s := (s.setReg (a + 0x10) (BitVec.ofNat 32 r.2.2.2.1)).setReg (a + 0x14) (BitVec.ofNat 32 (r.2.2.2.1 / 2 ^ 32))
    let x := r.2.2.2.2
    let x := { x with ready := x.ready.map fun c => { c with okey0 := newH c.okey0, okey1 := newH c.okey1 } }
    State.restoreQueues (s.setQueue j q x) j newH n (q + 1) (b.drop r.1)

/-- The event of a lack of room for a key (R428). -/
def State.roomEvent (s : State) (klen : Nat) : Option Nat :=
  if s.freeSlot.isNone then some 7
  else if decide (maxKey < klen) || (decide (32 < klen) && (!s.vaultEn || (s.vaultPlace (granules klen)).isNone)) then some 8
  else none

/-- The bytes that 16 queues of the body take. -/
def queuesLen : Nat → Bytes → Nat
  | 0, _ => 0
  | n + 1, b => let l := (readQueue b).1; l + queuesLen n (b.drop l)

/-- What a restore has made so far: old handle and new slot, old and new counter. -/
structure Restored where
  slots : List (Nat × Nat × Nat)
  ctrs : List (Nat × Nat)

/-- Why a restore does not go through. -/
inductive RestoreFail
  /-- A status, and the event of a full key table or vault (R428). -/
  | status (n : Nat) (event : Option Nat)
  /-- It waits for the DRBG. -/
  | waits

/-- A free reservation counter. -/
def State.findCounter (s : State) : Option Nat := (List.range 1024).find? fun n => !(s.ctr n).reserved && !(s.ctr n).bound

/-- The counter a carried entry is bound to: a new one with its LIMIT and a fresh tag, shared by the entries that shared
the old one (R392); of a counter that was gone already the entry keeps the number, under a tag that no counter holds (R287). -/
def State.restoreCtr (s : State) (acc : Restored) (kind old limit : Nat) : Except RestoreFail (Nat × Nat × Restored × State) :=
  if kind = 0 then .ok (0xFFFF, 0, acc, s)
  else if kind = 2 then .ok (old, 2 ^ 64, acc, s)
  else match acc.ctrs.find? fun p => p.1 == old with
    | some p => .ok (p.2, (s.ctr p.2).tag, acc, s)
    | none => match s.findCounter with
      | none => .error (.status 0x0B none)
      | some n =>
        if s.ent.mode == .halted then .error (.status 0x07 none)
        else match s.draw256 with
          | none => .error .waits
          | some (x, s) =>
            let tag := x.toNat % 2 ^ 64
            .ok (n, tag, { acc with ctrs := acc.ctrs ++ [(old, n)] },
              s.setCtr n { reserved := false, bound := true, limit := limit, tag := tag })

/-- Room for the `n` entries of the body, each taken as the one before has left the table and the vault (check 4 of R393); the
event of its lack. -/
def State.restoreRoom (s : State) (j : Nat) : Nat → Bytes → Option (Option Nat)
  | 0, _ => none
  | n + 1, b =>
    let klen := leAt b 16 4
    match s.entryRoom j klen with
    | (none, _) => some (s.roomEvent klen)
    | (some slot, _) =>
      let k : KeySlot := { dfltSlot slot with st := .reserved, owner := j, klen := klen }
      let k := if klen ≤ 32 then k
        else { k with loc := 1, addr := s.vaultBase + 1024 * ((s.vaultPlace (granules klen)).getD 0) }
      State.restoreRoom (s.setSlot slot k) j n (b.drop (if leAt b 10 1 != 2 then 40 else 40 + klen))

/-- Counters for the trees that the `n` entries carry (R392). -/
def ctrsNeeded : Nat → Bytes → List Nat
  | 0, _ => []
  | n + 1, b =>
    let l := ctrsNeeded n (b.drop (if leAt b 10 1 != 2 then 40 else 40 + leAt b 16 4))
    if leAt b 11 1 = 1 ∧ !l.contains (leAt b 20 2) then leAt b 20 2 :: l else l

/-- Reservation counters that are free. -/
def State.freeCtrs (s : State) : Nat := ((List.range 1024).filter fun n => !(s.ctr n).reserved && !(s.ctr n).bound).length

/-- Makes the `n` entries of the body for instance `j` (R392, R393). -/
def State.restoreEntries (s : State) (j : Nat) (acc : Restored) : Nat → Bytes → Except RestoreFail (Restored × State)
  | 0, _ => .ok (acc, s)
  | n + 1, b =>
    let klen := leAt b 16 4
    let lost := leAt b 10 1 != 2
    let key := if lost then List.replicate klen 0#8 else padTo klen (b.drop 40)
    match s.entryRoom j klen with
    | (none, _) => .error (.status 0x0B (s.roomEvent klen))
    | (some slot, _) => match s.restoreCtr acc (leAt b 11 1) (leAt b 20 2) (leAt b 22 4) with
      | .error e => .error e
      | .ok (rctr, tag, acc, s) =>
        let k : KeySlot := { dfltSlot slot with
          type := leAt b 8 1, set := leAt b 9 1, owner := j, attr := BitVec.ofNat 32 (leAt b 12 4), klen := klen
          rctr := rctr, treeTag := tag, height := leAt b 26 2, tset := leAt b 28 2, tn := leAt b 30 2, chain := leAt b 32 2
          fbytes := leAt b 34 4, nbytes := leAt b 38 2 }
        match s.makeEntry slot k key with
        | none => .error (.status 0x07 none)
        | some s =>
          let s := if lost then s.setSlot slot { s.slot slot with st := .lost } else s
          State.restoreEntries s j { acc with slots := acc.slots ++ [(leAt b 0 4, leAt b 4 4, slot)] } n
            (b.drop (if lost then 40 else 40 + klen))

/-- The new handle of a carried entry, 0 where it was not carried. -/
def State.newHandle (s : State) (acc : Restored) (h : Nat) : Nat :=
  match acc.slots.find? fun p => p.1 == h with
  | some p => s.handleOf p.2.2
  | none => 0

/-- The links between the restored entries; one whose parent was not carried has none that passes. -/
def State.relink (s : State) (j : Nat) (acc : Restored) : List (Nat × Nat × Nat) → State
  | [] => s
  | p :: t =>
    let h := if hIndex p.2.1 < 256 then s.handleOf j else s.newHandle acc p.2.1
    State.relink (s.setSlot p.2.2 { s.slot p.2.2 with parent := h }) j acc t

/-- DEPTH of the restored entries, from their links, `n` rounds (R415). -/
def State.redepth (s : State) (acc : Restored) : Nat → State
  | 0 => s
  | n + 1 => (acc.slots.foldl (fun s p =>
      let k := s.slot p.2.2
      s.setSlot p.2.2 { k with depth := (s.slot (hIndex k.parent)).depth + 1 }) s).redepth acc n

/-- Check 3 of R393: layout, identity, nonce and tag; the body where they pass. -/
def State.openHamper (s : State) (j : Nat) (b : Bytes) : Option Bytes :=
  let target := (b.drop 40).take 32
  let nonce := (b.drop 72).take 32
  if decide (b.length < 144) || leAt b 0 4 != 0x31484B41 || leAt b 4 2 != 1 || b.length != 144 + leAt b 108 4
      || target != s.targetId || s.nonceOf j != some nonce then none
  else gcmOpen (hamperKey ((b.drop 8).take 32) target nonce) (BitVec.ofNat 96 (leAt b 112 12)) (b.take 128) (b.drop 128)

/-- HAMPER_RESTORE (R392, R393). -/
def execHamperRestore (inst : BitVec 8) (hamper : HostRead) (s : State) : Host.Outcome State Fault Refusal :=
  let i := inst.toNat
  .next (s.mbxRun i 0x12 fun p s =>
    let j := leAt p 0 1
    if !s.targetOk j then s.refuseHamper i j 0x05
    else match s.readBuf i (bufAddr p 1) (bufLen p 1) hamper with
      | (none, s) => s.refuseHamper i j 0x10
      | (some b, s) => match s.openHamper j b with
        | none => s.refuseHamper i j 0x06
        | some body =>
          let ql := queuesLen 16 body
          let n := leAt b 104 4
          let entries := body.drop (ql + 1)
          let refuse (ev : Option Nat) (st : Nat) : State :=
            (match ev with | some e => s.raiseKt e j 0 | none => s).refuseHamper i j st
          match s.restoreRoom j n entries with
          | some ev => refuse ev 0x0B
          | none => if s.freeCtrs < (ctrsNeeded n entries).length then refuse none 0x0B
          else match s.restoreEntries j { slots := [], ctrs := [] } n entries with
          | .error (.status st ev) => refuse ev st
          | .error .waits => s
          | .ok (acc, t) =>
            let t := (t.relink j acc acc.slots).redepth acc 16
            let t := t.restoreQueues j (fun h => if h = 0 then 0 else t.newHandle acc h) 16 0 body
            let x := t.inst j
            let t := (t.setInst j { x with restored := true, mbx := { x.mbx with seq := leAt body ql 1 } }).dropNonce j
            t.answerMbx i 0x00 [])

end Sys2Proof.Machine
end

