-- ==== Sys2Proof/Machine/Modular.lean ====
section
/-!
DEFINITION. Vector modular arithmetic (R131 to R134), butterflies (R135, R136), VBMUL (R137), compression and rounding
(R140 to R142).
-/
namespace Sys2Proof.Machine

/-- The modulus slot MS reads, if MS names one. -/
def slotReads (ms : BitVec 3) : List Loc := if 4 ≤ ms.toNat then [.q (ms.toNat - 4)] else []

/-- The row of a modular instruction: legal only where MS and W select a modulus (R131, R133). -/
def modRow (f : VV) (e : Engine) (legal : Bool) (srcs dsts : List (BitVec 5)) (occ lat : Nat) : Row :=
  let r := vxuRow f (legal && (e.modulus f.ms f.w).isSome) srcs dsts occ lat
  { r with reads := slotReads f.ms ++ r.reads }

/-- The modulus in force; 1 stands for none and is never used by a legal word. -/
def modOf (f : VV) (e : Engine) : Nat := (e.modulus f.ms f.w).getD 1

/-- A modular operation of va and vb: `op w q a b`. -/
def modBin (id : EngId) (f : VV) (op : Nat → Nat → Nat → Nat → Nat) : State → Host.Outcome State Fault Refusal :=
  issueWord id (fun e => modRow f e (vvFree f) [f.va, f.vb] [f.vd] 8 12)
    (onEngine id (laneWrite f fun e i => op (widthOf f.w) (modOf f e) (elem f f.va e i) (elem f f.vb e i)))

/-- A modular operation of va alone: `op w q a`. -/
def modUn (id : EngId) (f : VV) (op : Nat → Nat → Nat → Nat) : State → Host.Outcome State Fault Refusal :=
  issueWord id (fun e => modRow f e (vvFree f) [f.va] [f.vd] 8 12)
    (onEngine id (laneWrite f fun e i => op (widthOf f.w) (modOf f e) (elem f f.va e i)))

/-- VMADD. -/
def execVmadd (id : EngId) (f : VV) (s : State) : Host.Outcome State Fault Refusal :=
  modBin id f (fun _ q a b => (a + b) % q) s
/-- VMSUB. -/
def execVmsub (id : EngId) (f : VV) (s : State) : Host.Outcome State Fault Refusal :=
  modBin id f (fun _ q a b => imod ((a : Int) - b) q) s
/-- VMNEG. -/
def execVmneg (id : EngId) (f : VV) (s : State) : Host.Outcome State Fault Refusal :=
  modUn id f (fun _ q a => imod (-(a : Int)) q) s
/-- VMMULM: the Montgomery form. -/
def execVmmulm (id : EngId) (f : VV) (s : State) : Host.Outcome State Fault Refusal :=
  modBin id f (fun w q a b => montMul w q a b) s
/-- VMMULB: the Barrett form. -/
def execVmmulb (id : EngId) (f : VV) (s : State) : Host.Outcome State Fault Refusal :=
  modBin id f (fun _ q a b => a * b % q) s

/-- VMMULMS: the Montgomery product with s[ss] mod 2^w. -/
def execVmmulms (id : EngId) (f : VV) (s : State) : Host.Outcome State Fault Refusal :=
  issueWord id
    (fun e => let r := modRow f e (vvFree f) [f.va] [f.vd] 8 12
              { r with reads := .s f.ss.toNat :: r.reads })
    (onEngine id (laneWrite f fun e i =>
      montMul (widthOf f.w) (modOf f e) (elem f f.va e i) ((e.sreg f.ss.toNat).toNat % 2 ^ widthOf f.w))) s

/-- VMRED. -/
def execVmred (id : EngId) (f : VV) (s : State) : Host.Outcome State Fault Refusal :=
  modUn id f (fun _ q a => a % q) s
/-- VMCENT: the centred representative as two's complement. -/
def execVmcent (id : EngId) (f : VV) (s : State) : Host.Outcome State Fault Refusal :=
  modUn id f (fun w q a => let t := a % q; if (q - 1) / 2 < t then ofInt w ((t : Int) - q) else t) s
/-- VMLIFT: a signed lane into [0, q). -/
def execVmlift (id : EngId) (f : VV) (s : State) : Host.Outcome State Fault Refusal :=
  modUn id f (fun w q a => imod (toSigned w a) q) s

/-! ## Slot set-up -/

/-- The DMEM address of a descriptor: s[ss] + imm16. -/
def descAddr (f : VV) (e : Engine) : Nat := effAddr (e.sreg f.ss.toNat) (f.imm.setWidth 64)

/-- The descriptor's modulus and width code, unless R132 refuses it. -/
def parseModDesc (b : Bytes) : Option ModSlot :=
  let q := leAt b 0 8
  let c := leAt b 8 1
  let w := 8 * 2 ^ (c % 4)
  if q % 2 = 0 || q < 3 || decide (c = 0) || decide (3 < c) || decide (2 ^ (w - 1) ≤ q)
      || (b.drop 9).any (fun x => x != 0#8) then none
  else some { q := q, w := c }

/-- The descriptor's field polynomial, unless R138 refuses it. -/
def parseGfDesc (b : Bytes) : Option Nat :=
  let p := leAt b 0 4
  let m := polyDeg p 32
  if m < 2 || 16 < m || (b.drop 4).any (fun x => x != 0#8) then none else some p

/-- VMODSET: slot Q(MS - 4) from a 64-byte descriptor; a refused descriptor leaves the slot invalid (R132). -/
def execVmodset (id : EngId) (f : VV) (s : State) : Host.Outcome State Fault Refusal :=
  issueWord id
    (fun _ => { legal := vvFree f && !f.pr && decide (4 ≤ f.ms.toNat)
                vec := true
                reads := [.s f.ss.toNat], writes := [(.q (f.ms.toNat - 4), 20)], holds := [(.lsp, 1)] })
    (fun s =>
      let e := s.eng id.idx
      let a := descAddr f e
      match e.dmemDenied a 64 64 false with
      | some c => .stop c s
      | none =>
        if e.dmemBad a 64 then .exc .parity 0 0 s
        else
          let r := parseModDesc (rdBytes e.dmem a 64)
          let s := s.setEng id.idx (e.setQslot (f.ms.toNat - 4) r)
          if r.isSome then .done s else .stop .illegalInstr s) s

/-- VGFSET: slot G(MS - 4) from a 64-byte descriptor (R138). -/
def execVgfset (id : EngId) (f : VV) (s : State) : Host.Outcome State Fault Refusal :=
  issueWord id
    (fun _ => { legal := vvFree f && !f.pr && decide (4 ≤ f.ms.toNat)
                vec := true
                reads := [.s f.ss.toNat], writes := [(.g (f.ms.toNat - 4), 20)], holds := [(.lsp, 1)] })
    (fun s =>
      let e := s.eng id.idx
      let a := descAddr f e
      match e.dmemDenied a 64 64 false with
      | some c => .stop c s
      | none =>
        if e.dmemBad a 64 then .exc .parity 0 0 s
        else
          let r := parseGfDesc (rdBytes e.dmem a 64)
          let s := s.setEng id.idx (e.setGslot (f.ms.toNat - 4) r)
          if r.isSome then .done s else .stop .illegalInstr s) s

/-! ## Butterflies -/

/-- The distance of VBFCT and VBFGS (R135). -/
def bfDist (f : VV) : Nat := 2 ^ (f.imm.toNat % 16)

/-- The butterfly of lane `j` runs (R135). -/
def bfRuns (f : VV) (e : Engine) (j : Nat) : Bool :=
  let l := bfDist f
  (j / l) % 2 == 0 && decide (j + l < e.limit (widthOf f.w) f.pr) && (e.preg f.pm.toNat).getLsbD j

/-- Writes both results of every butterfly; elements no butterfly writes keep their values (R135). -/
def butterflies (f : VV) (lo hi : Nat → Nat → Nat → Nat → Nat → Nat) (e : Engine) : Engine :=
  let w := widthOf f.w
  let q := modOf f e
  let l := bfDist f
  let val (g : Nat → Nat → Nat → Nat → Nat → Nat) (j : Nat) : Nat :=
    g w q (elem f f.va e j) (elem f f.va e (j + l)) (elem f f.vb e j)
  e.setWide f.pr f.vd.toNat
    (mapLanes w (fun i => bfRuns f e i || (decide (l ≤ i) && bfRuns f e (i - l)))
      (fun i => if bfRuns f e i then val lo i else val hi (i - l)) (e.wide f.pr f.vd.toNat) (countOf w f.pr))

/-- VBFCT: the Cooley-Tukey butterflies of one layer (R135). -/
def execVbfct (id : EngId) (f : VV) (s : State) : Host.Outcome State Fault Refusal :=
  issueWord id
    (fun e => modRow f e (vvFree f && decide (f.imm.toNat < 16)
      && decide (2 * bfDist f ≤ countOf (widthOf f.w) f.pr)) [f.va, f.vb] [f.vd] 8 12)
    (onEngine id (butterflies f (fun w q x y z => (x + montMul w q y z) % q)
      (fun w q x y z => imod ((x : Int) - montMul w q y z) q))) s

/-- VBFGS: the Gentleman-Sande butterflies of one layer (R135). -/
def execVbfgs (id : EngId) (f : VV) (s : State) : Host.Outcome State Fault Refusal :=
  issueWord id
    (fun e => modRow f e (vvFree f && decide (f.imm.toNat < 16)
      && decide (2 * bfDist f ≤ countOf (widthOf f.w) f.pr)) [f.va, f.vb] [f.vd] 8 12)
    (onEngine id (butterflies f (fun _ q x y _ => (x + y) % q)
      (fun w q x y z => montMul w q (imod ((x : Int) - y) q) z))) s

/-- Writes the pair (vd[i], va[i]) of every active element (R136). -/
def crossPairs (f : VV) (lo hi : Nat → Nat → Nat → Nat → Nat → Nat) (e : Engine) : Engine :=
  let w := widthOf f.w
  let q := modOf f e
  let val (g : Nat → Nat → Nat → Nat → Nat → Nat) (i : Nat) : Nat :=
    g w q (elem f f.vd e i) (elem f f.va e i) (elem f f.vb e i)
  let act := e.active w f.pr f.pm
  let cnt := countOf w f.pr
  (e.setWide f.pr f.vd.toNat (mapLanes w act (val lo) (e.wide f.pr f.vd.toNat) cnt)).setWide f.pr f.va.toNat
    (mapLanes w act (val hi) (e.wide f.pr f.va.toNat) cnt)

/-- VBFCTX: butterflies across two registers (R136). -/
def execVbfctx (id : EngId) (f : VV) (s : State) : Host.Outcome State Fault Refusal :=
  issueWord id
    (fun e => modRow f e (vvFree f && f.vd != f.va) [f.vd, f.va, f.vb] [f.vd, f.va] 8 12)
    (onEngine id (crossPairs f (fun w q lo hi z => (lo + montMul w q hi z) % q)
      (fun w q lo hi z => imod ((lo : Int) - montMul w q hi z) q))) s

/-- VBFGSX (R136). -/
def execVbfgsx (id : EngId) (f : VV) (s : State) : Host.Outcome State Fault Refusal :=
  issueWord id
    (fun e => modRow f e (vvFree f && f.vd != f.va) [f.vd, f.va, f.vb] [f.vd, f.va] 8 12)
    (onEngine id (crossPairs f (fun _ q lo hi _ => (lo + hi) % q)
      (fun w q lo hi z => montMul w q (imod ((lo : Int) - hi) q) z))) s

/-- VBMUL: products of degree-one polynomials modulo X^2 - gamma (R137). -/
def execVbmul (id : EngId) (f : VV) (s : State) : Host.Outcome State Fault Refusal :=
  issueWord id
    (fun e => modRow f e (vvFree f) [f.va, f.vb, f.vc] [f.vd] 16 20)
    (onEngine id fun e =>
      let w := widthOf f.w
      let q := modOf f e
      let runs (i : Nat) : Bool :=
        decide (i - i % 2 + 1 < e.limit w f.pr) && (e.preg f.pm.toNat).getLsbD (i - i % 2)
      let out (i : Nat) : Nat :=
        let k := i - i % 2
        let a0 := elem f f.va e k
        let a1 := elem f f.va e (k + 1)
        let b0 := elem f f.vb e k
        let b1 := elem f f.vb e (k + 1)
        if i % 2 = 0 then (montMul w q a0 b0 + montMul w q (montMul w q a1 b1) (elem f f.vc e k)) % q
        else (montMul w q a0 b1 + montMul w q a1 b0) % q
      e.setWide f.pr f.vd.toNat (mapLanes w runs out (e.wide f.pr f.vd.toNat) (countOf w f.pr))) s

/-! ## Compression, packing and rounding -/

/-- VCOMPR (R140). -/
def execVcompr (id : EngId) (f : VV) (s : State) : Host.Outcome State Fault Refusal :=
  let d := f.imm.toNat
  issueWord id
    (fun e => modRow f e (vvFree f && decide (1 ≤ d) && decide (d < 32)
      && decide (d < widthOf f.w)) [f.va] [f.vd] 8 12)
    (onEngine id (laneWrite f fun e i =>
      roundDiv (elem f f.va e i % modOf f e * 2 ^ d) (modOf f e) % 2 ^ d)) s

/-- VDECOMPR (R140). -/
def execVdecompr (id : EngId) (f : VV) (s : State) : Host.Outcome State Fault Refusal :=
  let d := f.imm.toNat
  issueWord id
    (fun e => modRow f e (vvFree f && decide (1 ≤ d) && decide (d < 32)
      && decide (d < widthOf f.w)) [f.va] [f.vd] 8 12)
    (onEngine id (laneWrite f fun e i =>
      roundDiv (modOf f e * (elem f f.va e i % 2 ^ d)) (2 ^ d) % 2 ^ widthOf f.w)) s

/-- The bits VPACK and VUNPACK keep of an element: D = imm16[5:0] (R141). -/
def packBits (f : VV) : Nat := f.imm.toNat % 64

/-- The legality VPACK and VUNPACK share (R141). -/
def packLegal (f : VV) : Bool :=
  vvFree f && f.pm == 0#3 && f.ms == 0#3 && decide (1 ≤ packBits f) && decide (packBits f ≤ widthOf f.w)

/-- VPACK: D bits of each element below the limit, packed from bit 0; the whole destination is written (R141). -/
def execVpack (id : EngId) (f : VV) (s : State) : Host.Outcome State Fault Refusal :=
  issueWord id (fun _ => vxuRow f (packLegal f) [f.va] [f.vd] 8 12)
    (onEngine id fun e =>
      let w := widthOf f.w
      let d := packBits f
      let n := e.limit w f.pr
      e.setWide f.pr f.vd.toNat (buildLanes d (fun i => elem f f.va e i) n)) s

/-- VUNPACK: D-bit fields into the elements below the limit, bits at or beyond the capacity reading 0 (R141). -/
def execVunpack (id : EngId) (f : VV) (s : State) : Host.Outcome State Fault Refusal :=
  issueWord id (fun _ => vxuRow f (packLegal f) [f.va] [f.vd] 8 12)
    (onEngine id fun e =>
      let w := widthOf f.w
      let d := packBits f
      let src := e.wide f.pr f.va.toNat
      e.setWide f.pr f.vd.toNat
        (mapLanes w (fun i => decide (i < e.limit w f.pr)) (fun i => (src >>> (i * d)).toNat % 2 ^ d)
          (e.wide f.pr f.vd.toNat) (countOf w f.pr))) s

/-- Writes vd and vc of every active element (R142). -/
def splitWrite (f : VV) (hi lo : Nat → Nat) (e : Engine) : Engine :=
  let act := e.active 32 f.pr f.pm
  let cnt := countOf 32 f.pr
  let q := modOf f e
  let r (i : Nat) : Nat := lane 32 (e.wide f.pr f.va.toNat) i % q
  (e.setWide f.pr f.vd.toNat (mapLanes 32 act (fun i => hi (r i)) (e.wide f.pr f.vd.toNat) cnt)).setWide f.pr f.vc.toNat
    (mapLanes 32 act (fun i => lo (r i)) (e.wide f.pr f.vc.toNat) cnt)

/-- VP2R: Power2Round by 2^13 (R142). -/
def execVp2r (id : EngId) (f : VV) (s : State) : Host.Outcome State Fault Refusal :=
  issueWord id
    (fun e => modRow f e (vvFree f && f.ms == 1#3 && f.w == 2#2 && f.vd != f.vc)
      [f.va] [f.vd, f.vc] 8 12)
    (onEngine id (splitWrite f (fun r => (((r : Int) - centred r 8192) / 8192).toNat)
      (fun r => ofInt 32 (centred r 8192)))) s

/-- The divisor of VSPLIT (R142). -/
def splitBase (f : VV) : Nat := if f.imm == 0#16 then 2 * 8380416 / 88 else 2 * 8380416 / 32

/-- VSPLIT: high and low parts for ML-DSA (R142). -/
def execVsplit (id : EngId) (f : VV) (s : State) : Host.Outcome State Fault Refusal :=
  let a := splitBase f
  issueWord id
    (fun e => modRow f e (vvFree f && f.ms == 1#3 && f.w == 2#2 && f.vd != f.vc
      && decide (f.imm.toNat ≤ 1)) [f.va] [f.vd, f.vc] 8 12)
    (onEngine id (splitWrite f
      (fun r => let d := (r : Int) - centred r a; if d = 8380416 then 0 else (d / a).toNat)
      (fun r => let d := (r : Int) - centred r a; ofInt 32 (if d = 8380416 then centred r a - 1 else centred r a)))) s

end Sys2Proof.Machine
end

