-- ==== Sys2Proof/Machine/Keccak.lean ====
section
/-!
DEFINITION. The Keccak unit and sampling instructions (R74, R164 to R170).
-/
namespace Sys2Proof.Machine

/-- ORD of a KC word (R110). -/
def kcOrd (f : VV) : Nat := f.w.toNat

/-- The state slots of an order (R74). -/
def kcuLocs (ord : Nat) : List Loc := (List.range (sharesOf ord)).map .kcu

/-- The fields a KC word leaves zero, and a legal order (R110, R165). -/
def kcLegal (f : VV) (used : List VField) : Bool := vvOnly f used && !f.pr && f.w != 3#2

/-- The state as the combination of its shares. -/
def Engine.kcombined (e : Engine) (ord : Nat) : KSlot :=
  (List.range (sharesOf ord)).foldl (fun a j => a ^^^ e.kslot j) 0#1600

/-- Writes the slots `0 .. n - 1`. -/
def setSlots (g : Nat → KSlot) (e : Engine) : Nat → Engine
  | 0 => e
  | n + 1 => (setSlots g e n).setKslot n (g n)

/-- The state after a masked or unmasked permutation: share 0 balances the masks of the others (R74, R149). -/
def kpermState (ord : Nat) (out : KSlot) (e : Engine) : Engine :=
  let mask (j : Nat) : KSlot := Config.kccMask e.seed e.pealEc j
  setSlots (fun j => if j = 0 then (List.range ord).foldl (fun a j => a ^^^ mask (j + 1)) out else mask j) e
    (sharesOf ord)

/-- KINIT (R165). -/
def execKinit (id : EngId) (f : VV) (s : State) : Host.Outcome State Fault Refusal :=
  issueWord id
    (fun _ => { legal := kcLegal f [], vec := true, writes := (kcuLocs (kcOrd f)).map fun l => (l, 1)
                holds := [(.kcu, 1)] })
    (onEngine id fun e => setSlots (fun _ => 0#1600) e (sharesOf (kcOrd f))) s

/-- OFF and RB of KABS and KSQZ (R165). -/
def kOff (f : VV) : Nat := f.imm.toNat / 256
def kRb (f : VV) : Nat := f.imm.toNat % 256

/-- The bounds of KABS and KSQZ (R166). -/
def kRangeOk (f : VV) : Bool :=
  decide (1 ≤ kRb f) && decide (kRb f ≤ 200) && decide (8 * kOff f + kRb f ≤ 512)

/-- The occupancy of KABS, KSQZ, KSAVE and KREST (R181). -/
def kOcc (f : VV) : Nat := 4 * sharesOf (kcOrd f)

/-- KABS: bytes of a register group into the state, share by share (R165). -/
def execKabs (id : EngId) (f : VV) (s : State) : Host.Outcome State Fault Refusal :=
  issueWord id
    (fun _ => { legal := kcLegal f [.va, .imm] && kRangeOk f && groupOk (kcOrd f) false f.va
                vec := true
                reads := kcuLocs (kcOrd f) ++ groupRegs (kcOrd f) false f.va.toNat
                writes := (kcuLocs (kcOrd f)).map fun l => (l, kOcc f)
                holds := [(.kcu, kOcc f)] })
    (onEngine id fun e =>
      let m : Wide := BitVec.ofNat 8192 (2 ^ (8 * kRb f) - 1)
      setSlots (fun j => e.kslot j ^^^
        ((e.wide false (f.va.toNat + j) >>> (64 * kOff f)) &&& m).setWidth 1600) e (sharesOf (kcOrd f))) s

/-- KPERM: one permutation at the order's timing; a lane-parity failure stops it at a round's start (R74, R170). -/
def execKperm (id : EngId) (f : VV) (s : State) : Host.Outcome State Fault Refusal :=
  let n := [12, 48, 96].getD (kcOrd f) 96
  let d := if kcOrd f = 0 then 0 else n
  issueWord id
    (fun _ => { legal := kcLegal f [], vec := true, draw := d
                reads := kcuLocs (kcOrd f)
                writes := (kcuLocs (kcOrd f)).map fun l => (l, n)
                holds := (.kcu, n) :: (if d = 0 then [] else [(.mrg, d)]) })
    (fun s =>
      let e := s.eng id.idx
      let x := e.kcombined (kcOrd f)
      match e.kcuUpset with
      | some r => .exc .kcuCheck 6 0
          (s.setEng id.idx { kpermState (kcOrd f) (keccakRounds (r % 24) x) e with kcuUpset := none })
      | none => .done (s.setEng id.idx (kpermState (kcOrd f) (keccakF x) e))) s

/-- KSQZ: bytes of the state into a register group (R165). -/
def execKsqz (id : EngId) (f : VV) (s : State) : Host.Outcome State Fault Refusal :=
  issueWord id
    (fun _ => { legal := kcLegal f [.vd, .imm] && kRangeOk f && groupOk (kcOrd f) false f.vd
                vec := true
                reads := kcuLocs (kcOrd f)
                writes := (groupRegs (kcOrd f) false f.vd.toNat).map fun l => (l, kOcc f + 2)
                holds := [(.kcu, kOcc f)] })
    (onEngine id fun e =>
      let m : Wide := BitVec.ofNat 8192 (2 ^ (8 * kRb f) - 1)
      let o := 64 * kOff f
      e.setShares false f.vd.toNat 0 ((List.range (sharesOf (kcOrd f))).map fun j =>
        (e.wide false (f.vd.toNat + j) &&& ~~~(m <<< o)) ||| ((((e.kslot j).setWidth 8192) &&& m) <<< o))) s

/-- The row of KSAVE and KREST (R181). -/
def kMemRow (f : VV) (save : Bool) (_ : Engine) : Row :=
  { legal := kcLegal f [.ss, .imm]
    vec := true
    reads := .s f.ss.toNat :: (if save then kcuLocs (kcOrd f) else [])
    writes := if save then [] else (kcuLocs (kcOrd f)).map fun l => (l, kOcc f)
    holds := [(.kcu, kOcc f), (.lsp, kOcc f)] }

/-- Bytes of a slot, filled to 256. -/
def slotBytes (k : KSlot) : Bytes := padTo 256 (natLe 200 k.toNat)

/-- KSAVE: the state shares to DMEM, 256 bytes apart (R165, R167). -/
def execKsave (id : EngId) (f : VV) (s : State) : Host.Outcome State Fault Refusal :=
  issueWord id (kMemRow f true)
    (fun s =>
      let e := s.eng id.idx
      let a := descAddr f e
      let n := sharesOf (kcOrd f)
      match e.dmemDenied a (256 * n) 64 true with
      | some c => .stop c s
      | none => .done (s.setEng id.idx
          (e.dmemWrite a ((List.range n).flatMap fun j => slotBytes (e.kslot j))))) s

/-- KREST: the state shares from DMEM; bytes 200 to 255 of each are not read (R165, R167). -/
def execKrest (id : EngId) (f : VV) (s : State) : Host.Outcome State Fault Refusal :=
  issueWord id (kMemRow f false)
    (fun s =>
      let e := s.eng id.idx
      let a := descAddr f e
      let n := sharesOf (kcOrd f)
      match e.dmemDenied a (256 * n) 64 false with
      | some c => .stop c s
      | none =>
        if (List.range n).any (fun j => e.dmemBad (a + 256 * j) 200) then .exc .parity 0 0 s
        else .done (s.setEng id.idx
          (setSlots (fun j => BitVec.ofNat 1600 (leNat (rdBytes e.dmem (a + 256 * j) 200))) e n))) s

/-- Coefficient `i` of a centred-binomial sample of a bit string (R168). -/
def cbdCoeff (v : Wide) (eta i : Nat) : Nat :=
  let sum (o : Nat) : Nat := (List.range eta).foldl (fun n b => n + b2n (v.getLsbD (2 * eta * i + o + b))) 0
  imod ((sum 0 : Int) - sum eta) 3329

/-- VCBD: a centred-binomial polynomial from a bit string; masked, from a Boolean group to an arithmetic one (R168).
The word carries ORD where W stands, so the width 16 is the operation's own (log entry 14). -/
def execVcbd (id : EngId) (f : VV) (s : State) : Host.Outcome State Fault Refusal :=
  let ord := kcOrd f
  let eta := f.imm.toNat
  let occ := [8, 40, 112].getD ord 112
  let d := [0, 8, 32].getD ord 32
  let g : VV := { f with w := 1#2 }
  issueWord id
    (fun _ => { legal := kcLegal f [.vd, .va, .imm, .pm] && (eta == 2 || eta == 3) && groupOk ord false f.vd
                  && groupOk ord false f.va
                vec := true
                draw := d
                reads := [.vl, .p f.pm.toNat] ++ groupRegs ord false f.va.toNat
                writes := (groupRegs ord false f.vd.toNat).map fun l => (l, occ + 4)
                holds := (.vxu, occ) :: (if d = 0 then [] else [(.mrg, d)]) })
    (onEngine id fun e =>
      let bits := (e.shares ord false f.va.toNat).foldl (fun a b => a ^^^ b) 0#8192
      let act := e.active 16 false g.pm
      let masks (i : Nat) : List Nat :=
        (List.range ord).map fun j => Config.shareMask e.seed e.pealEc (j + 1) i % 3329
      let old := e.shares ord false f.vd.toNat
      e.setShares false f.vd.toNat 0 ((List.range (sharesOf ord)).map fun j =>
        mapLanes 16 act (fun i =>
          if j = 0 then imod ((cbdCoeff bits eta i : Int) - (((masks i).foldl (fun a b => a + b) 0 : Nat) : Int)) 3329
          else (masks i).getD (j - 1) 0) (old.getD j 0#8192) 256)) s

/-- The candidates of VSREJ in ascending byte order: accepted values only (R169). -/
def rejValues (ms : Nat) : List Nat → List Nat
  | b0 :: b1 :: t =>
    if ms = 2 then
      let c := 256 * b0 + b1
      if c < 61445 then (c % 12289) :: rejValues ms t else rejValues ms t
    else match t with
      | b2 :: t =>
        if ms = 0 then
          ([b0 + 256 * (b1 % 16), b1 / 16 + 16 * b2].filter fun c => decide (c < 3329)) ++ rejValues ms t
        else
          let c := b0 + 256 * b1 + 65536 * (b2 % 128)
          if c < 8380417 then c :: rejValues ms t else rejValues ms t
      | [] => []
  | _ => []

/-- The element width of VSREJ: 16 for MS 0 and 2, 32 for MS 1 (R169). -/
def rejWidth (ms : Nat) : Nat := if ms = 1 then 32 else 16

/-- VSREJ: rejection sampling into consecutive elements from s[ss] on (R169). -/
def execVsrej (id : EngId) (f : VV) (s : State) : Host.Outcome State Fault Refusal :=
  let ms := f.ms.toNat
  let rb := f.imm.toNat
  let w := rejWidth ms
  let cnt := countOf w false
  issueWord id
    (fun _ => { legal := kcLegal f [.vd, .va, .ss, .ms, .imm] && f.w == 0#2 && decide (ms ≤ 2) && decide (1 ≤ rb)
                  && decide (rb ≤ 200) && decide (rb % (if ms = 2 then 2 else 3) = 0)
                vec := true
                reads := .s f.ss.toNat :: formRegs false f.va.toNat
                writes := (.s f.ss.toNat, 20) :: (formRegs false f.vd.toNat).map fun l => (l, 20)
                holds := [(.vxu, 16)] })
    (onEngine id fun e =>
      let acc := rejValues ms ((bytesOfWide (e.wide false f.va.toNat) 0 rb).map BitVec.toNat)
      let k := (e.sreg f.ss.toNat).toNat
      (e.setWide false f.vd.toNat
        (mapLanes w (fun i => decide (k ≤ i) && decide (i < k + acc.length)) (fun i => acc.getD (i - k) 0)
          (e.wide false f.vd.toNat) cnt)).setSreg f.ss.toNat (BitVec.ofNat 64 (min (k + acc.length) cnt))) s

end Sys2Proof.Machine
end

