-- ==== Sys2Proof/Machine/KeyPort.lean ====
section
/-!
DEFINITION. The key-port instructions KLD and KST (R69 to R73, R156, R171, R172).
-/
namespace Sys2Proof.Machine

/-- The number of shares a KP word moves. -/
def kpShares (f : KP) : Nat := if f.ts then 3 else 2

/-- The scalar register of share `j`. -/
def kpReg (f : KP) (j : Nat) : Nat := ([f.sa.toNat, f.sb.toNat, f.sc.toNat]).getD j 0

/-- The DMEM address of share `j`. -/
def kpAddr (f : KP) (e : Engine) (j : Nat) : Nat := (e.sreg (kpReg f j)).toNat

/-- The block at `a` lies in plane `j` of a key-share buffer of the form's order (R155, R156). -/
def shareBufOk (e : Engine) (ts : Bool) (j a : Nat) : Bool :=
  ((e.resident.map (·.shbufs)).getD []).any fun b =>
    b.layout / 16 % 4 == 3 && b.layout / 64 == (if ts then 2 else 1)
      && decide (b.base + j * b.stride ≤ a) && decide (a + 512 ≤ b.base + j * b.stride + b.planeLen)

/-- Why a KP word is not performed: its slot (R69), its addresses (R156, R171), the constant region (R60). -/
def kpDenied (f : KP) (e : Engine) (en : Nat) (store : Bool) : Option Cause :=
  if !e.scheduled || e.pealEc % 32 != 0 || e.localBeat % 32 != en then some .keyportSlot
  else if (List.range (kpShares f)).any (fun j => kpAddr f e j % 64 != 0) then some .addrAlign
  else if !(List.range (kpShares f)).all (fun j => shareBufOk e f.ts j (kpAddr f e j)) then some .addrRange
  else if store && (List.range (kpShares f)).any
      (fun j => decide (kpAddr f e j < (e.resident.map (·.constLen)).getD 0)) then some .constWrite
  else none

/-- The row of a KP word (R181). -/
def kpRow (f : KP) (load : Bool) (_ : Engine) : Row :=
  let occ := if f.ts then 24 else 16
  { legal := f.zero == 0#26 && (f.ts || f.sc == 0#5) && (load || decide (f.key.toNat ≤ 1))
    vec := f.ts
    draw := if f.ts && load then 8 else 0
    reads := (List.range (kpShares f)).map fun j => .s (kpReg f j)
    holds := (.lsp, occ) :: (.kpt, 32) :: (if f.ts && load then [(.mrg, 8)] else []) }

/-- The call an engine works for. -/
def Engine.callOf (e : Engine) : Nat := match e.peal with | some p => p.call | none => 0

/-- An input key of the running peal in the key-port buffer. -/
def Cluster.inKey (k : Cluster) (call en num : Nat) : Option KpKey :=
  k.kpb.find? fun x => x.call == call && x.engine == en && !x.out && x.num == num

/-- The bit of the permitted-masters attribute that a score class needs (R27). -/
def classBit (cls : Nat) : Nat := if cls = 2 then 1 else 0

/-- Whether a KLD of a key is refused: by score class (R27) or by debug readback (R95). A KLD of an orphaned key is no such
KLD: R23 gives its outcome. -/
def kldRefused (e : Engine) (k : KpKey) : Bool :=
  !k.orphan && (!k.masters.testBit (classBit ((e.resident.map (·.cls)).getD 0)) || (e.dbgOn && !k.exportable))

/-- A KLD of a key delivers zeros in every share: it is refused, or the key is orphaned (R73). -/
def kldZero (e : Engine) (k : KpKey) : Bool := k.orphan || kldRefused e k

/-- The status that a refused KLD or one of an orphaned key fixes for the release beat; the first one stands (R27, R73, R95;
log entry 102). -/
def Engine.deny (e : Engine) (st : Nat) : Engine := { e with keyDenied := some (e.keyDenied.getD st) }

/-- Block `b` of a share: 512 bytes, zero beyond its length (R71). -/
def shareBlock (sh : Bytes) (b : Nat) : Bytes := padTo 512 (sh.drop (512 * b))

/-- The mask of a three-share KLD: 512 mask-generator bits in each of 8 ec (R71). -/
def kldMask (e : Engine) : Bytes :=
  (List.range 8).flatMap fun c => (List.range 4).flatMap fun l =>
    natLe 16 (Config.mrgLane e.seed l (e.pealEc + c)).toNat

/-- The shares a KLD delivers: two shares, or (x0 xor m, x1, m) (R71). -/
def kldBlocks (f : KP) (e : Engine) (k : Option KpKey) : List Bytes :=
  let x (g : KpKey → Bytes) : Bytes :=
    match k with
    | some k => if kldZero e k then shareBlock [] 0 else shareBlock (g k) f.blk.toNat
    | none => shareBlock [] 0
  let zero := match k with | some k => kldZero e k | none => true
  if f.ts then
    let m := if zero then shareBlock [] 0 else kldMask e
    [xorBytes (x (·.share0)) m, x (·.share1), m]
  else [x (·.share0), x (·.share1)]

/-- Writes block after block at the share addresses. -/
def putBlocks (f : KP) (e : Engine) : Nat → List Bytes → Engine → Engine
  | _, [], r => r
  | j, b :: t, r => putBlocks f e (j + 1) t (r.dmemWrite (kpAddr f e j) b)

/-- KLD: a block of an input key, in all shares, into DMEM. A refused KLD delivers zeros, raises DE_KEYPORT_DENY and
fixes the call's status; one of an orphaned key delivers zeros and fixes KEY_ORPHANED; a key the call does not carry
delivers zeros alone (R71, R73, R172). A block that fails its parity check is not delivered (R581). -/
def execKld (id : EngId) (f : KP) (s : State) : Host.Outcome State Fault Refusal :=
  issueWord id (kpRow f true)
    (fun s =>
      let e := s.eng id.idx
      match kpDenied f e id.en.toNat true with
      | some c => .stop c s
      | none =>
        let k := (s.cl id.cl.toNat).inKey e.callOf id.en.toNat f.key.toNat
        let e1 := putBlocks f e 0 (kldBlocks f e k) e
        match k with
        | some x =>
          if x.orphan then .done (s.setEng id.idx (e1.deny 0x04))
          else if kldRefused e x then
            .done ((s.raise id.cl.toNat 12 (e.syn0 id.en.toNat 0) (e.syn1 0)).setEng id.idx (e1.deny 0x05))
          else if x.bad then .exc .parity 5 0 s
          else .done (s.setEng id.idx e1)
        | none => .done (s.setEng id.idx e1)) s

/-- A share with block `b` replaced; the blocks below it are zero where nothing has written them. -/
def putBlock (sh : Bytes) (b : Nat) (x : Bytes) : Bytes := padTo (512 * b) sh ++ x ++ sh.drop (512 * (b + 1))

/-- The call carries output key `n`: its variant reserves it (R172, R196). -/
def Engine.hasOutKey (e : Engine) (n : Nat) : Bool :=
  match e.peal with | some p => p.var.resvs.any fun r => r.kind == 6 && r.place == n | none => false

/-- An output key of the running peal in the key-port buffer; its entry's attributes are set at admission. -/
def Cluster.outKey (k : Cluster) (call en num : Nat) : KpKey :=
  (k.kpb.find? fun x => x.call == call && x.engine == en && x.out && x.num == num).getD
    { call := call, engine := en, out := true, num := num, len := 0, share0 := [], share1 := [], masters := 3,
      exportable := true, orphan := false, bad := false }

/-- The key-port buffer with a block of an output key replaced. A block number beyond the key's reserved blocks is stored
like any other: R72 states no bound, and the key table takes KLEN bytes (log entry 103). -/
def Cluster.putOut (k : Cluster) (call en num b : Nat) (y0 y1 : Bytes) : Cluster :=
  let old := k.outKey call en num
  { k with kpb := (k.kpb.filter fun x => !(x.call == call && x.engine == en && x.out && x.num == num)) ++
      [{ old with share0 := putBlock old.share0 b y0, share1 := putBlock old.share1 b y1
                  len := max old.len (512 * (b + 1)) }] }

/-- KST: a block of an output key from DMEM into the key-port buffer; three shares are stored as (y0 xor y2, y1)
(R72). One the call does not carry has no effect (R172); one whose entry does not permit the score's class is refused
(R27). -/
def execKst (id : EngId) (f : KP) (s : State) : Host.Outcome State Fault Refusal :=
  issueWord id (kpRow f false)
    (fun s =>
      let e := s.eng id.idx
      match kpDenied f e id.en.toNat false with
      | some c => .stop c s
      | none =>
        let y (j : Nat) : Bytes := rdBytes e.dmem (kpAddr f e j) 512
        if (List.range (kpShares f)).any (fun j => e.dmemBad (kpAddr f e j) 512) then .exc .parity 0 0 s
        else if !e.hasOutKey f.key.toNat then .done s
        else if !((s.cl id.cl.toNat).outKey e.callOf id.en.toNat f.key.toNat).masters.testBit
            (classBit ((e.resident.map (·.cls)).getD 0)) then
          .done ((s.raise id.cl.toNat 12 (e.syn0 id.en.toNat 0) (e.syn1 0)).setEng id.idx (e.deny 0x05))
        else .done (s.setCl id.cl.toNat ((s.cl id.cl.toNat).putOut e.callOf id.en.toNat f.key.toNat f.blk.toNat
          (if f.ts then xorBytes (y 0) (y 2) else y 0) (y 1)))) s

end Sys2Proof.Machine
end

