-- ==== Sys2Proof/Machine/Library.lean ====
section
/-!
DEFINITION. The operations of the score library, each as what its score does in one peal: key loads, output, result word
and output keys (R222, R255 to R280, R665, R670).
-/
namespace Sys2Proof.Machine

/-! ## What a library score reads and leaves -/

/-- The call a score works on, its input keys as KLD delivers them, and its random blocks in key-number order (R666). -/
structure LibIn where
  c : Call
  key : Nat → Bytes
  rand : Bytes

/-- What a score leaves: STATUS, output, output keys. -/
structure LibOut where
  status : Nat
  out : Bytes
  key0 : Option Bytes
  key1 : Option Bytes

/-- A status without output. -/
def LibOut.fail (st : Nat) : LibOut := { status := st, out := [], key0 := none, key1 := none }
def LibOut.ok (out : Bytes) (key0 key1 : Option Bytes) : LibOut := { status := 0, out := out, key0 := key0, key1 := key1 }

/-- OK or VERIFY_FAILED (R280). -/
def LibOut.verdict (b : Bool) : LibOut := LibOut.fail (if b then 0 else 0x0D)

/-- The bytes that KLDs of an input key bring: zeros where the key is orphaned or refused, or where there is none
(R71, R73). -/
def State.kldKey (s : State) (i call n : Nat) : Bytes :=
  match (s.cl (i / 32)).inKey call (i % 32) n with
  | some x => if kldZero (s.eng i) x then [] else xorBytes x.share0 x.share1
  | none => []

/-- A block of an input key that a KLD delivers fails its parity check (R148, R581). -/
def State.kldBad (s : State) (i call : Nat) : Bool :=
  (List.range 4).any fun n => match (s.cl (i / 32)).inKey call (i % 32) n with
    | some x => x.bad && !kldZero (s.eng i) x
    | none => false

/-- Refused and stale input keys of the running peal fix the status of its release beat (R27, R73, R95). -/
def State.kldAll (s : State) (i call : Nat) : List Nat → State
  | [] => s
  | n :: t =>
    let e := s.eng i
    let s := match (s.cl (i / 32)).inKey call (i % 32) n with
      | some x =>
        if x.orphan then s.setEng i (e.deny 0x04)
        else if kldRefused e x then (s.raise (i / 32) 12 (e.syn0 (i % 32) 0) (e.syn1 0)).setEng i (e.deny 0x05)
        else s
      | none => s
    s.kldAll i call t

/-- A key as two shares under the engine's mask seed (R72). -/
def Engine.keyShares (e : Engine) (n : Nat) (key : Bytes) : Bytes × Bytes :=
  let m := (List.range key.length).map fun j => Config.outMask e.seed n j
  (xorBytes key m, m)

/-- KSTs of one output key: none where the variant reserves none, refused where the entry does not permit the score's
class (R27, R72, R172). -/
def State.kstKey (s : State) (i call n : Nat) (key : Option Bytes) : State :=
  let e := s.eng i
  let x := s.cl (i / 32)
  let old := x.outKey call (i % 32) n
  match key with
  | none => s
  | some b =>
    if !e.hasOutKey n then s
    else if !old.masters.testBit (classBit ((e.resident.map (·.cls)).getD 0)) then
      (s.raise (i / 32) 12 (e.syn0 (i % 32) 0) (e.syn1 0)).setEng i (e.deny 0x05)
    else
      let sh := e.keyShares n b
      let mine (y : KpKey) : Bool := y.call == call && y.engine == i % 32 && y.out && y.num == n
      s.setCl (i / 32) { x with kpb := (x.kpb.filter fun y => !mine y) ++
        [{ old with share0 := sh.1, share1 := sh.2, len := b.length, bad := false }] }

/-- The result word (R222). -/
def resultBytes (len status accept : Nat) : Bytes := natLe 4 len ++ natLe 1 status ++ natLe 1 accept ++ natLe 2 0

/-- The result word goes to RES_OFF of the work extent of engine `i`'s frame. -/
def State.putResult (s : State) (i : Nat) (p : Peal) (w : Bytes) : State :=
  let k := (s.cl (i / 32)).commitAll
  match p.var.work with
  | none => s
  | some r => s.setCl (i / 32) (k.putExtent r (i % 32) p.frame p.var.resOff w)

/-- The score of engine `i` has done its work: output and result word in CSM, output keys stored, END issued. -/
def State.libLeave (s : State) (i : Nat) (p : Peal) (accept : Nat) (o : LibOut) : State :=
  let h : Half := { unit := i, frame := p.frame, start := p.start, res := none }
  let s := match p.var.ext 2 with | some r => s.putHalf h r o.out | none => s
  let s := s.putResult i p (resultBytes o.out.length o.status accept)
  let s := (s.kstKey i p.call 0 o.key0).kstKey i p.call 1 o.key1
  s.setEng i { s.eng i with mode := .ended, endSeen := true }

/-- Byte strings in a row, each behind its length; and `n` of them back. -/
def packBytes : List Bytes → Bytes
  | [] => []
  | b :: t => natLe 4 b.length ++ b ++ packBytes t
def unpackBytes : Nat → Bytes → List Bytes
  | 0, _ => []
  | n + 1, r => (r.drop 4).take (leAt r 0 4) :: unpackBytes n ((r.drop 4).drop (leAt r 0 4))

/-- What the main peal of a chain stores by KST for its attempts, which get no input key 0 or 1 and no random block: the keys
and the random bytes it was given (R228, R262; layout: log entry 108). -/
def LibIn.record (x : LibIn) : Bytes := packBytes [x.key 0, x.key 1, x.key 2, x.key 3, x.rand]

/-- The output key that carries the record: 0, or 1 where the variant reserves no key 0 (log entry 108). -/
def Engine.carryKey (e : Engine) : Nat := if e.hasOutKey 0 then 0 else 1

/-- What the score of a call reads in its main peal, or in an attempt from the block it was carried as input key 2 or 3
(R228). -/
def State.libIn (s : State) (i : Nat) (c : Call) (call : Nat) : LibIn :=
  if c.attempt = 0 then { c := c, key := fun n => s.kldKey i call n, rand := c.rand.flatten }
  else
    let l := unpackBytes 5 (s.kldKey i call (2 + (s.eng i).carryKey))
    { c := c, key := fun n => (l.take 4).getD n [], rand := l.getD 4 [] }

/-- What a peal that does not accept leaves: the main peal the record for the attempts, an attempt nothing (R227, R228). -/
def LibIn.retry (x : LibIn) (n : Nat) : LibOut :=
  let r := if x.c.attempt = 0 then some x.record else none
  { LibOut.fail 0 with key0 := if n = 0 then r else none, key1 := if n = 0 then none else r }

/-- Runs a library operation in the peal of an engine whose call has one of its opcodes. A chain runs its main peal and at least
one attempt; the peals before the accepting one leave ACCEPT 0 (R227, R665). -/
def State.libOp (s : State) (id : EngId) (serves : Nat → Bool) (tries : LibIn → Nat) (f : LibIn → LibOut) : State :=
  let i := id.idx
  match (s.eng i).peal with
  | none => s
  | some p => match s.call p.call with
    | none => s
    | some c =>
      if (s.eng i).mode != .run || p.scrubbed || !serves c.opcode then s
      else if s.kldBad i p.call then s.takeExc i .parity 5 0
      else
        let x := s.libIn i c p.call
        let s := s.kldAll i p.call [0, 1, 2, 3]
        if p.var.chain && decide (c.attempt < max 1 (tries x)) then s.libLeave i p 0 (x.retry (s.eng i).carryKey)
        else s.libLeave i p 1 (f x)

/-- The attempts that R665 makes a function of input, keys, random bytes and DET, and those fixed by opcode and part. -/
def LibIn.tries (x : LibIn) : Nat :=
  Config.attempts x.c.opcode x.c.aux x.c.input (packBytes [x.key 0, x.key 1, x.key 2, x.key 3])
    (if x.c.det then [] else x.rand)
def LibIn.fixedTries (x : LibIn) : Nat := Config.fixedAttempts x.c.opcode 0

/-- A named public key, or the one at the front of the input, with the rest of the input. -/
def LibIn.public (x : LibIn) (n : Nat) : Bytes × Bytes :=
  if x.c.keyHandle 0 = 0 then (x.c.input.take n, x.c.input.drop n) else (x.key 0, x.c.input)

/-- A public key that came with the input fails its check (R257, R280). -/
def LibIn.badPublic (x : LibIn) (t set : Nat) (pk : Bytes) : Bool := x.c.keyHandle 0 == 0 && !publicKeyOk t set pk

/-- The opcode lies in a family's range with step `k` of `n`. -/
def inFamily (lo hi n k : Nat) (op : Nat) : Bool := decide (lo ≤ op) && decide (op ≤ hi) && (op - lo) % n == k

/-! ## KEMs (R255 to R258, R274) -/

/-- Sizes of a set: ek, dk, ct, K and the type of its public key. -/
structure KemSet where
  set : Nat
  ek : Nat
  dk : Nat
  ct : Nat
  k : Nat
  pub : Nat

/-- The ML-KEM set of an opcode. -/
def mlKem (op : Nat) : KemSet :=
  let j := (op - 1) / 6
  { set := 0x01 + 6 * j, ek := [800, 1184, 1568].getD j 0, dk := [1632, 2400, 3168].getD j 0
    ct := [768, 1088, 1568].getD j 0, k := 32, pub := 0x11 }

/-- The HQC set of an opcode. -/
def hqc (op : Nat) : KemSet :=
  let j := (op - 0x84) / 3
  { set := 0x84 + 3 * j, ek := [2249, 4522, 7245].getD j 0, dk := [2305, 4586, 7317].getD j 0
    ct := [4433, 8978, 14421].getD j 0, k := 64, pub := 0x1B }

/-- Key generation, encapsulation, decapsulation. -/
def kemKeygen (z : KemSet) (x : LibIn) : LibOut :=
  let r := Config.kemKeygen z.set x.rand
  .ok (padTo z.ek r.1) (some (padTo z.dk r.2)) none
def kemEncaps (z : KemSet) (x : LibIn) : LibOut :=
  let p := (x.public z.ek).1
  if x.badPublic z.pub z.set p then .fail 0x06
  else let r := Config.kemEncaps z.set p x.rand
       .ok (padTo z.ct r.1) (some (padTo z.k r.2)) none
def kemDecaps (set k : Nat) (x : LibIn) : LibOut := .ok [] (some (padTo k (Config.kemDecaps set (x.key 0) x.c.input))) none

/-- ML-KEM key generation. -/
def execMlKemKeygen (id : EngId) (s : State) : Host.Outcome State Fault Refusal :=
  .next (s.libOp id (fun op => inFamily 0x01 0x12 6 0 op || inFamily 0x01 0x12 6 1 op) LibIn.fixedTries
    fun x => kemKeygen (mlKem x.c.opcode) x)

/-- ML-KEM encapsulation. -/
def execMlKemEncaps (id : EngId) (s : State) : Host.Outcome State Fault Refusal :=
  .next (s.libOp id (fun op => inFamily 0x01 0x12 6 2 op || inFamily 0x01 0x12 6 3 op) LibIn.fixedTries
    fun x => kemEncaps (mlKem x.c.opcode) x)

/-- ML-KEM decapsulation. -/
def execMlKemDecaps (id : EngId) (s : State) : Host.Outcome State Fault Refusal :=
  .next (s.libOp id (fun op => inFamily 0x01 0x12 6 4 op || inFamily 0x01 0x12 6 5 op) LibIn.fixedTries
    fun x => kemDecaps (mlKem x.c.opcode).set 32 x)

/-- HQC key generation. -/
def execHqcKeygen (id : EngId) (s : State) : Host.Outcome State Fault Refusal :=
  .next (s.libOp id (inFamily 0x84 0x8C 3 0) LibIn.fixedTries fun x => kemKeygen (hqc x.c.opcode) x)

/-- HQC encapsulation. -/
def execHqcEncaps (id : EngId) (s : State) : Host.Outcome State Fault Refusal :=
  .next (s.libOp id (inFamily 0x84 0x8C 3 1) LibIn.fixedTries fun x => kemEncaps (hqc x.c.opcode) x)

/-- HQC decapsulation. -/
def execHqcDecaps (id : EngId) (s : State) : Host.Outcome State Fault Refusal :=
  .next (s.libOp id (inFamily 0x84 0x8C 3 2) LibIn.fixedTries fun x => kemDecaps (hqc x.c.opcode).set 64 x)

/-- Classic McEliece decapsulation. -/
def execMceDecaps (id : EngId) (s : State) : Host.Outcome State Fault Refusal :=
  .next (s.libOp id (fun op => decide (0x97 ≤ op) && decide (op ≤ 0x9B)) LibIn.fixedTries
    fun x => kemDecaps x.c.opcode 32 x)

/-! ## Signatures (R259 to R263, R265, R277) -/

/-- Sizes of a signature set: pk, sk, signature and the type of its public key. -/
structure SigSet where
  set : Nat
  pk : Nat
  sk : Nat
  sig : Nat
  pub : Nat

/-- The sets by opcode. -/
def mlDsa (op : Nat) : SigSet :=
  let j := (op - 0x14) / 5
  { set := 0x14 + 5 * j, pk := [1312, 1952, 2592].getD j 0, sk := [2560, 4032, 4896].getD j 0
    sig := [2420, 3309, 4627].getD j 0, pub := 0x13 }
def fnDsa (op : Nat) : SigSet :=
  let j := (op - 0x24) / 3
  { set := 0x24 + 3 * j, pk := [897, 1793].getD j 0, sk := [1281, 2305].getD j 0, sig := [666, 1280].getD j 0, pub := 0x15 }
def edDsa (op : Nat) : SigSet :=
  if op < 0x7F then { set := 0x7C, pk := 32, sk := 32, sig := 64, pub := 0x24 }
  else { set := 0x7F, pk := 57, sk := 57, sig := 114, pub := 0x24 }
def slhDsa (s : Nat) : SigSet :=
  { set := 0x2C + 3 * s, pk := 2 * slhN s, sk := 4 * slhN s, sig := (slhParts s).foldl (· + ·) 0, pub := 0x17 }

/-- Random bytes that signing uses: none under DET (R250). -/
def LibIn.signRand (x : LibIn) : Bytes := if x.c.det then [] else x.rand

/-- ctx and M′ of a signing call. -/
def LibIn.ctx (x : LibIn) : Bytes := x.c.input.take x.c.ctxLen
def LibIn.msg (x : LibIn) : Bytes := x.c.input.drop x.c.ctxLen

/-- Key generation, signing, and signing whose candidate is verified in the accepting peal (R282). -/
def sigKeygen (z : SigSet) (x : LibIn) : LibOut :=
  let r := Config.sigKeygen z.set x.rand
  .ok (padTo z.pk r.1) (some (padTo z.sk r.2)) none
def LibIn.signature (x : LibIn) (z : SigSet) : Bytes :=
  padTo z.sig (Config.sigSign z.set x.c.aux x.ctx x.msg (x.key 0) x.signRand)
def sigSign (z : SigSet) (x : LibIn) : LibOut := .ok (x.signature z) none none
def sigSignVerify (z : SigSet) (x : LibIn) : LibOut :=
  if Config.sigVerify z.set x.c.aux (padTo z.pk (Config.sigPkOf z.set (x.key 0))) x.ctx x.msg (x.signature z) then
    sigSign z x
  else .fail 0x09

/-- Ed25519 and Ed448 key generation: sk is the first 32 or 57 bytes delivered (R277, R666). -/
def edKeygen (z : SigSet) (x : LibIn) : LibOut :=
  let sk := padTo z.sk x.rand
  .ok (padTo z.pk (Config.sigPkOf z.set sk)) (some sk) none

/-- SLH-DSA key generation: SK.seed, SK.prf and PK.seed are the first 3n bytes delivered (R265); the standard's private key is
these and PK.root, its public key PK.seed and PK.root. -/
def slhKeygen (s : Nat) (x : LibIn) : LibOut :=
  let n := slhN s
  let seeds := padTo (3 * n) x.rand
  let root := padTo n (Config.slhRoot s (seeds.take n) (seeds.drop (2 * n)))
  .ok (seeds.drop (2 * n) ++ root) (some (seeds ++ root)) none

/-- Verification. -/
def sigVerify (z : SigSet) (x : LibIn) : LibOut :=
  let p := x.public z.pk
  let m := p.2.drop x.c.ctxLen
  if x.badPublic z.pub z.set p.1 then .fail 0x06
  else .verdict (Config.sigVerify z.set x.c.aux p.1 (p.2.take x.c.ctxLen) (m.take (m.length - z.sig)) (m.drop (m.length - z.sig)))

/-- ML-DSA key generation. -/
def execMlDsaKeygen (id : EngId) (s : State) : Host.Outcome State Fault Refusal :=
  .next (s.libOp id (fun op => inFamily 0x14 0x22 5 0 op || inFamily 0x14 0x22 5 1 op) LibIn.fixedTries
    fun x => sigKeygen (mlDsa x.c.opcode) x)

/-- ML-DSA signing: an attempt chain (R260). -/
def execMlDsaSign (id : EngId) (s : State) : Host.Outcome State Fault Refusal :=
  .next (s.libOp id (fun op => inFamily 0x14 0x22 5 2 op || inFamily 0x14 0x22 5 3 op) LibIn.tries
    fun x => sigSignVerify (mlDsa x.c.opcode) x)

/-- ML-DSA verification. -/
def execMlDsaVerify (id : EngId) (s : State) : Host.Outcome State Fault Refusal :=
  .next (s.libOp id (inFamily 0x14 0x22 5 4) LibIn.fixedTries fun x => sigVerify (mlDsa x.c.opcode) x)

/-- FN-DSA key generation: an attempt chain (R263). -/
def execFnDsaKeygen (id : EngId) (s : State) : Host.Outcome State Fault Refusal :=
  .next (s.libOp id (inFamily 0x24 0x29 3 0) LibIn.tries fun x => sigKeygen (fnDsa x.c.opcode) x)

/-- FN-DSA signing: an attempt chain (R262, R263). -/
def execFnDsaSign (id : EngId) (s : State) : Host.Outcome State Fault Refusal :=
  .next (s.libOp id (inFamily 0x24 0x29 3 1) LibIn.tries fun x => sigSignVerify (fnDsa x.c.opcode) x)

/-- FN-DSA verification. -/
def execFnDsaVerify (id : EngId) (s : State) : Host.Outcome State Fault Refusal :=
  .next (s.libOp id (inFamily 0x24 0x29 3 2) LibIn.fixedTries fun x => sigVerify (fnDsa x.c.opcode) x)

/-- Ed25519 and Ed448 key generation. -/
def execEdKeygen (id : EngId) (s : State) : Host.Outcome State Fault Refusal :=
  .next (s.libOp id (inFamily 0x7C 0x81 3 0) LibIn.fixedTries fun x => edKeygen (edDsa x.c.opcode) x)

/-- Ed25519 and Ed448 signing. -/
def execEdSign (id : EngId) (s : State) : Host.Outcome State Fault Refusal :=
  .next (s.libOp id (inFamily 0x7C 0x81 3 1) LibIn.fixedTries fun x => sigSign (edDsa x.c.opcode) x)

/-- Ed25519 and Ed448 verification. -/
def execEdVerify (id : EngId) (s : State) : Host.Outcome State Fault Refusal :=
  .next (s.libOp id (inFamily 0x7C 0x81 3 2) LibIn.fixedTries fun x => sigVerify (edDsa x.c.opcode) x)

/-! ## SLH-DSA and its continuations (R265 to R269). The layout of a record is the model's (log entry 21). -/

/-- A record, and its fields: direction, set, next part, copies of the public key, a part of a wrong length met before,
state. -/
def contRecord (verify : Bool) (s part : Nat) (pk : Bytes) (bad : Bool) (st : Bytes) : Bytes :=
  natLe 1 (1 + b2n verify) ++ natLe 1 s ++ natLe 1 part ++ natLe 1 (b2n bad) ++ padTo 64 pk ++ padTo 128 st
def contPk (r : Bytes) (s : Nat) : Bytes := (r.drop 4).take (2 * slhN s)
def contState (r : Bytes) : Bytes := (r.drop 68).take 128

/-- The public key in a private key of set `s`: PK.seed ‖ PK.root. -/
def slhPkOf (sk : Bytes) (s : Nat) : Bytes := (sk.drop (2 * slhN s)).take (2 * slhN s)

/-- A record of the other direction, of another set, of no further part, or with other copies than KEY0 (R269). -/
def contBad (verify : Bool) (s parts : Nat) (r : Bytes) (pk : Option Bytes) : Bool :=
  leAt r 0 1 != 1 + b2n verify || leAt r 1 1 != s || decide (parts ≤ leAt r 2 1)
    || (match pk with | some p => p != contPk r s | none => false)

/-- The set number of an SLH-DSA opcode. -/
def slhSetOf (op : Nat) : Nat := if op < 0x50 then (op - 0x2C) / 3 else (op - 0x50) / 2

/-- SLH-DSA key generation. -/
def execSlhDsaKeygen (id : EngId) (s : State) : Host.Outcome State Fault Refusal :=
  .next (s.libOp id (inFamily 0x2C 0x4F 3 0) LibIn.fixedTries fun x => slhKeygen (slhSetOf x.c.opcode) x)

/-- SLH-DSA signing: part 0, and a continuation for a set of several parts (R267). -/
def execSlhDsaSign (id : EngId) (s : State) : Host.Outcome State Fault Refusal :=
  .next (s.libOp id (inFamily 0x2C 0x4F 3 1) LibIn.fixedTries fun x =>
    let z := slhSetOf x.c.opcode
    let parts := slhParts z
    let sig := Config.sigSign (0x2C + 3 * z) x.c.aux x.ctx x.msg (x.key 0) x.signRand
    let st := Config.slhState z x.c.aux x.c.input (x.key 0) x.signRand
    .ok (padTo (parts.getD 0 0) sig) none
      (if parts.length = 1 then none else some (contRecord false z 1 (slhPkOf (x.key 0) z) false st)))

/-- The next part of a signature (R267, R269). -/
def execSlhDsaSignContinuation (id : EngId) (s : State) : Host.Outcome State Fault Refusal :=
  .next (s.libOp id (inFamily 0x50 0x67 2 0) (fun x => Config.fixedAttempts x.c.opcode (leAt (x.key 1) 2 1)) fun x =>
    let z := slhSetOf x.c.opcode
    let r := x.key 1
    let parts := slhParts z
    let p := leAt r 2 1
    let pk := slhPkOf (x.key 0) z
    if contBad false z parts.length r (some pk) then .fail 0x06
    else .ok (padTo (parts.getD p 0) (Config.slhPart z p (x.key 0) (contState r))) none
      (if p + 1 = parts.length then none
       else some (contRecord false z (p + 1) pk false (Config.slhNext z p (x.key 0) (contState r)))))

/-- SLH-DSA verification: the verdict, or part 0 and a continuation (R268). -/
def execSlhDsaVerify (id : EngId) (s : State) : Host.Outcome State Fault Refusal :=
  .next (s.libOp id (inFamily 0x2C 0x4F 3 2) LibIn.fixedTries fun x =>
    let z := slhSetOf x.c.opcode
    let d := slhDsa z
    if slhOneVerify z then sigVerify d x
    else
      let p := x.public d.pk
      let m := p.2.drop x.c.ctxLen
      let n := m.length - (slhParts z).getD 0 0
      if x.badPublic d.pub d.set p.1 then .fail 0x06
      else
        let st := Config.slhAbsorb0 z x.c.aux p.1 (p.2.take (x.c.ctxLen + n)) (m.drop n)
        .ok [] none (some (contRecord true z 1 p.1 false st)))

/-- The next part of a verification: a continuation, or on the last part the verdict (R268, R269). -/
def execSlhDsaVerifyContinuation (id : EngId) (s : State) : Host.Outcome State Fault Refusal :=
  .next (s.libOp id (inFamily 0x50 0x67 2 1) (fun x => Config.fixedAttempts x.c.opcode (leAt (x.key 1) 2 1)) fun x =>
    let z := slhSetOf x.c.opcode
    let r := x.key 1
    let parts := slhParts z
    let p := leAt r 2 1
    let pk := contPk r z
    if contBad true z parts.length r (if x.c.keyHandle 0 = 0 then none else some (x.key 0)) then .fail 0x06
    else
      let bad := leAt r 3 1 != 0 || x.c.input.length != parts.getD p 0
      let st := Config.slhAbsorb z p pk (contState r) x.c.input
      if p + 1 = parts.length then .verdict (!bad && Config.slhVerdict z pk st)
      else .ok [] none (some (contRecord true z (p + 1) pk bad st)))

/-! ## Stateful trees (R270 to R273, R284, R670) -/

/-- A job of a tree (log entry 21): tag, family, signing opcode, height, hash bytes, levels left, lower, family byte,
codes, parent identifier, steps done, identifier, seeds. -/
def treeJob (fam op h n levels : Nat) (lower : Bool) (byte9 : Nat) (codes parent ident seeds : Bytes) (done : Nat) :
    Bytes :=
  natLe 1 5 ++ natLe 1 fam ++ natLe 1 op ++ natLe 1 h ++ natLe 1 n ++ natLe 1 levels ++ natLe 1 (b2n lower)
    ++ natLe 1 byte9 ++ padTo 8 codes ++ padTo 16 parent ++ natLe 4 done ++ padTo 16 ident ++ padTo 96 seeds

/-- A tree entry (log entry 21): tag, signing opcode, height, hash bytes, levels left, family byte, chain length, codes,
identifier, seeds, root, chain. -/
def treeEntry (op h n levels byte9 : Nat) (codes ident seeds root chain : Bytes) : Bytes :=
  padTo 256 (natLe 1 6 ++ natLe 1 op ++ natLe 1 h ++ natLe 1 n ++ natLe 1 levels ++ natLe 1 byte9 ++ natLe 2 chain.length
    ++ padTo 8 codes ++ padTo 16 ident ++ padTo 96 seeds ++ padTo 32 root) ++ chain

/-- Codes, identifier, chain of an entry; what its signatures depend on. -/
def entCodes (b : Bytes) : Bytes := (b.drop 8).take 8
def entIdent (b : Bytes) : Bytes := (b.drop 16).take 16
def entChain (b : Bytes) : Bytes := (b.drop 256).take (leAt b 6 2)

/-- The layers of an XMSS or XMSS^MT OID (R270). -/
def xmssLayers (byte9 oid : Nat) : Nat := if byte9 = 0 then 1 else [0, 2, 4, 2, 4, 0, 3].getD (oid % 0x20) 0

/-- A lower tree fits its parent: a level is left, and an XMSS^MT layer carries its parent's OID (R270). -/
def treeFits (fam byte9 : Nat) (codes parent : Bytes) : Bool :=
  decide (2 ≤ leAt parent 4 1) && (fam == 0x68 || (byte9 == leAt parent 5 1 && codes.take 4 == (entCodes parent).take 4))

/-- TREE_BEGIN: the seeds, the identifier and the job (R270, R670). The counter is bound at the release beat (R445). -/
def execTreeBegin (id : EngId) (s : State) : Host.Outcome State Fault Refusal :=
  .next (s.libOp id isTreeBegin LibIn.fixedTries fun x => match x.c.tree with
    | none => .fail 0x06
    | some (op, h, n) =>
      let fam := x.c.opcode
      let codes := x.c.param.take 8
      let b9 := x.c.pbyte 9
      let lower := x.c.keyHandle 0 != 0
      let parent := x.key 0
      if lower && !treeFits fam b9 codes parent then .fail 0x06
      else
        let levels := if lower then leAt parent 4 1 - 1 else if fam = 0x68 then x.c.pbyte 8 else xmssLayers b9 (beNat (codes.take 4))
        let seeds := if fam = 0x68 then x.rand.take n
          else if lower then Config.treeSeeds parent
          else (List.range 3).flatMap fun j => padTo 32 ((x.rand.drop (32 * j)).take n)
        let ident := if fam = 0x68 then (x.rand.drop 32).take 16 else Config.treeIdent codes seeds
        .ok [] none (some (treeJob fam op h n levels lower b9 codes (if lower then entIdent parent else []) ident seeds 0)))

/-- Steps of a tree of height `h` (R271). -/
def treeSteps (h : Nat) : Nat := max 1 (2 ^ h / 512)

/-- A job of the call's family. -/
def jobBad (x : LibIn) (begin_ : Nat) : Bool := leAt (x.key 1) 0 1 != 5 || leAt (x.key 1) 1 1 != begin_

/-- What the leaves and the root of a job's tree depend on: all its fields but the tag, the parent and the steps done. -/
def treeSpec (j : Bytes) : Bytes := (j.drop 1).take 15 ++ j.drop 36

/-- The job after one more step. -/
def jobNext (j : Bytes) : Bytes := j.take 32 ++ natLe 4 (leAt j 32 4 + 1) ++ (j.drop 36).take 112

/-- TREE_STEP: the next 512 leaf values or the rest, and the successor job (R271). -/
def execTreeStep (id : EngId) (s : State) : Host.Outcome State Fault Refusal :=
  .next (s.libOp id (fun op => op == 0x69 || op == 0x71) LibIn.fixedTries fun x =>
    let j := x.key 1
    let done := leAt j 32 4
    let h := leAt j 3 1
    let n := leAt j 4 1
    if jobBad x (x.c.opcode - 1) || decide (treeSteps h ≤ done) then .fail 0x06
    else
      let leaves := (List.range (min 512 (2 ^ h))).flatMap fun k => padTo n (Config.treeLeaf (treeSpec j) done k)
      .ok leaves none (some (jobNext j)))

/-- The public key of the whole hierarchy (R271). -/
def treePk (j root : Bytes) : Bytes :=
  let n := leAt j 4 1
  if leAt j 1 1 = 0x68 then natBe 4 (leAt j 5 1) ++ (j.drop 8).take 8 ++ (j.drop 36).take 16 ++ padTo n root
  else (j.drop 8).take 4 ++ padTo n root ++ (j.drop (52 + 64)).take n

/-- The public key of one LMS tree, as a chain carries it. -/
def lmsPk (j root : Bytes) : Bytes := (j.drop 8).take 8 ++ (j.drop 36).take 16 ++ padTo (leAt j 4 1) root

/-- An assigned index below the capacity of a tree of height `h` (R287). -/
def indexOk (q : Option Nat) (h : Nat) : Bool := match q with | some n => decide (n < 2 ^ h) | none => false

/-- A tree's signature of a message, verified before it leaves; none on a mismatch (R282). -/
def treeSigned (e : Bytes) (q : Nat) (m auth : Bytes) : Option Bytes :=
  let sig := padTo (treeSigLen (leAt e 1 1) (leAt e 2 1) (leAt e 3 1)) (Config.treeSign e q m auth)
  if Config.treeSigOk e q m auth sig then some sig else none

/-- TREE_END: the tree entry, and the public key or the parent's signature of the new root. A top tree stores no chain; a lower
one stores its parent's, the signature and, for LMS, its own public key (R271, R285; log entry 19). -/
def execTreeEnd (id : EngId) (s : State) : Host.Outcome State Fault Refusal :=
  .next (s.libOp id (fun op => op == 0x6A || op == 0x72) LibIn.fixedTries fun x =>
    let j := x.key 1
    let lower := leAt j 6 1 != 0
    let lms := leAt j 1 1 == 0x68
    let up := x.key 0
    let q := x.c.qIndex.getD 0
    let root := Config.treeRoot (treeSpec j)
    let make (chain : Bytes) : Bytes :=
      treeEntry (leAt j 2 1) (leAt j 3 1) (leAt j 4 1) (leAt j 5 1) (leAt j 7 1) ((j.drop 8).take 8) ((j.drop 36).take 16)
        ((j.drop 52).take 96) root chain
    if jobBad x (x.c.opcode - 2) || leAt j 32 4 != treeSteps (leAt j 3 1) || lower != (x.c.keyHandle 0 != 0) then .fail 0x06
    else if lower && (j.drop 16).take 16 != entIdent up then .fail 0x06
    else if !lower then .ok (treePk j root) (some (make [])) none
    else if !indexOk x.c.qIndex (leAt up 2 1) then .fail 0x0E
    else match treeSigned up q (if lms then lmsPk j root else padTo (leAt j 4 1) root) [] with
      | none => .fail 0x09
      | some sig => .ok sig (some (make (entChain up ++ sig ++ (if lms then lmsPk j root else [])))) none)

/-- Signing with a tree: the stored chain and the bottom signature (R273, R282). -/
def treeSign (x : LibIn) : LibOut :=
  let e := x.key 0
  let h := leAt e 2 1
  let n := leAt e 3 1
  let q := x.c.qIndex.getD 0
  let ml := x.c.input.length - h * n
  let auth := x.c.input.drop ml
  if !indexOk x.c.qIndex h then .fail 0x0E
  else if !Config.treePathOk e q auth then .fail 0x06
  else match treeSigned e q (x.c.input.take ml) auth with
    | none => .fail 0x09
    | some sig => .ok (entChain e ++ sig) none none

/-- LMS signing. -/
def execLmsSign (id : EngId) (s : State) : Host.Outcome State Fault Refusal :=
  .next (s.libOp id (fun op => decide (0x6B ≤ op) && decide (op ≤ 0x6E)) LibIn.fixedTries treeSign)

/-- XMSS signing. -/
def execXmssSign (id : EngId) (s : State) : Host.Outcome State Fault Refusal :=
  .next (s.libOp id (fun op => op == 0x73) LibIn.fixedTries treeSign)

/-- The length of the stateful public key that an input begins with, by its own codes; none where they name no set of
R270. -/
def treePkLen (set : Nat) (b : Bytes) : Option Nat :=
  let w (o : Nat) : Nat := beNat ((b.drop o).take 4)
  if set = 1 then match lmsType (w 4) with | some (_, m) => some (28 + m) | none => none
  else (if set = 2 then xmssType (w 0) else xmssMtType (w 0)).map fun p => 4 + 2 * p.2

/-- The shortest and the longest signature under a stateful public key: one length where its codes fix it; for an HSS key of
several levels they give the top tree's alone (R273, log entry 109). -/
def treeSigSpan (set : Nat) (pk : Bytes) : Nat × Nat :=
  let w (o : Nat) : Nat := beNat ((pk.drop o).take 4)
  if set = 1 then
    let top := match lmsType (w 4), otsType (w 8) with
      | some (h, m), some (_, ots) => treeSigLen (0x6B + (if ots = 8 then 2 else 0) + (if m = 32 then 1 else 0)) h m
      | _, _ => 0
    let more := w 0 - 1
    (top + more * (treeSigLen 0x6D 5 24 + 48), top + more * (treeSigLen 0x6C 25 32 + 56))
  else
    let n := match (if set = 2 then xmssType (w 0) else xmssMtType (w 0)) with
      | some (h, n) => xmssLayers (set - 2) (w 0) * treeSigLen 0x73 h n
      | none => 0
    (n, n)

/-- The verdict on M′ ‖ σ under a stateful public key: M′ has 0 to 8,192 bytes (R273, log entry 109). -/
def treeVerdict (set : Nat) (pk b : Bytes) : LibOut :=
  let z := treeSigSpan set pk
  .verdict (decide (z.1 ≤ b.length) && decide (b.length ≤ z.2 + 8192) && Config.treeVerify set pk b)

/-- Verification with a stateful public key (R273). -/
def treeVerify (x : LibIn) (set : Nat) : LibOut :=
  if x.c.keyHandle 0 != 0 then treeVerdict set (x.key 0) x.c.input
  else match treePkLen set x.c.input with
    | none => .fail 0x06
    | some n =>
      if !statefulPkOk set (x.c.input.take n) then .fail 0x06
      else treeVerdict set (x.c.input.take n) (x.c.input.drop n)

/-- LMS and HSS verification. -/
def execLmsHssVerify (id : EngId) (s : State) : Host.Outcome State Fault Refusal :=
  .next (s.libOp id (fun op => op == 0x6F) LibIn.fixedTries fun x => treeVerify x 1)

/-- XMSS and XMSS^MT verification: the family from PARAM byte 9, or from SET of the entry (R273, R664). -/
def execXmssVerify (id : EngId) (s : State) : Host.Outcome State Fault Refusal :=
  .next (s.libOp id (fun op => op == 0x74) LibIn.fixedTries fun x =>
    treeVerify x (if x.c.keyHandle 0 = 0 then 2 + x.c.pbyte 9 else (s.slot (hIndex (x.c.keyHandle 0))).set))

/-! ## Classic McEliece procedures (R275, R276). Layout of the records and order of the steps: log entries 21, 22. -/

/-- Panels and pivot panels of a set (R274). -/
def mcePanels (z : Nat) : Nat := [109, 144, 209, 218, 256].getD z 0
def mcePivots (z : Nat) : Nat := [24, 39, 52, 49, 52].getD z 0

/-- A next-step word (R276). -/
def stepWord (kind a b : Nat) : Bytes := natLe 1 kind ++ natLe 1 0 ++ natLe 2 a ++ natLe 2 b ++ natLe 2 0

/-- The step after one: every panel is initialised; then each pivot panel in turn is pivoted and the later panels are
eliminated by it (log entry 22). -/
def mceSucc (z kind a b : Nat) : Nat × Nat × Nat :=
  let pn := mcePanels z
  let pv := mcePivots z
  let after (a : Nat) : Nat × Nat × Nat := if a + 1 < pv then (2, a + 1, 0) else (4, 0, 0)
  match kind with
  | 1 => if a + 1 < pn then (1, a + 1, 0) else (2, 0, 0)
  | 2 => if a + 1 < pn then (3, a, a + 1) else after a
  | _ => if b + 1 < pn then (3, a, b + 1) else after a

/-- A job: tag, set, identifier, and the step the last word named. -/
def mceJob (z : Nat) (ident : Bytes) (w : Nat × Nat × Nat) : Bytes :=
  natLe 1 3 ++ natLe 1 z ++ padTo 16 ident ++ stepWord w.1 w.2.1 w.2.2
def mceJobSet (j : Bytes) : Nat := leAt j 1 1
def mceJobId (j : Bytes) : Bytes := (j.drop 2).take 16
def mceJobStep (j : Bytes) : Nat × Nat × Nat := (leAt j 18 1, leAt j 20 2, leAt j 22 2)

/-- A Goppa record, and a panel record with its number, the pivots applied and whether it is pivoted. -/
def mceGoppaRec (ident g : Bytes) : Bytes := natLe 1 1 ++ padTo 16 ident ++ g
def mcePanel (ident : Bytes) (n pivots : Nat) (pivoted : Bool) (b : Bytes) : Bytes :=
  natLe 1 2 ++ padTo 16 ident ++ natLe 2 n ++ natLe 2 pivots ++ natLe 1 (b2n pivoted) ++ b

/-- A record agrees with its job. -/
def isGoppa (j r : Bytes) : Bool := leAt r 0 1 == 1 && (r.drop 1).take 16 == mceJobId j
def isPanel (j r : Bytes) (n pivots : Nat) (pivoted : Bool) : Bool :=
  leAt r 0 1 == 2 && (r.drop 1).take 16 == mceJobId j && leAt r 17 2 == n && leAt r 19 2 == pivots
    && leAt r 21 1 == b2n pivoted

/-- A job that asks for a kind of step. -/
def isJob (j : Bytes) : Bool := leAt j 0 1 == 3

/-- MCE_KG_BEGIN: the Goppa record, the job and the first word. -/
def execMceKgBegin (id : EngId) (s : State) : Host.Outcome State Fault Refusal :=
  .next (s.libOp id (fun op => op == 0x90) LibIn.fixedTries fun x =>
    let z := x.c.pbyte 0
    let ident := padTo 16 (Config.mceJobId x.rand)
    .ok (stepWord 1 0 0) (some (mceGoppaRec ident (Config.mceGoppa z x.rand))) (some (mceJob z ident (1, 0, 0))))

/-- The result of a step: the new panel, the job and the word of the next step. -/
def mceStepOk (j panel : Bytes) (w : Nat × Nat × Nat) : LibOut :=
  .ok (stepWord w.1 w.2.1 w.2.2) (some panel) (some (mceJob (mceJobSet j) (mceJobId j) w))

/-- MCE_KG_STEP: the one step the job asks for, with the keys of its kind (R276). -/
def execMceKgStep (id : EngId) (s : State) : Host.Outcome State Fault Refusal :=
  .next (s.libOp id (fun op => op == 0x91) LibIn.fixedTries fun x =>
    let j := x.key 1
    let z := mceJobSet j
    let (kind, a, b) := mceJobStep j
    let next := mceSucc z kind a b
    let named (l : List Nat) : Bool := [0, 2, 3].all fun n => (x.c.keyHandle n != 0) == l.contains n
    if !isJob j then .fail 0x06
    else match kind with
    | 1 =>
      if !named [0] || !isGoppa j (x.key 0) then .fail 0x06
      else mceStepOk j (mcePanel (mceJobId j) a 0 false (Config.mceInit z a ((x.key 0).drop 17))) next
    | 2 =>
      let p := x.key 2
      if !named [2] || !isPanel j p a a false then .fail 0x06
      else
        mceStepOk j (mcePanel (mceJobId j) a (a + 1) true (Config.mcePivot z a (p.drop 22)))
          (if Config.mceSingular z a (p.drop 22) then (5, 0, 0) else next)
    | 3 =>
      let p := x.key 2
      let r := x.key 3
      if !named [2, 3] || !isPanel j p a (a + 1) true || !isPanel j r b a false then .fail 0x06
      else mceStepOk j (mcePanel (mceJobId j) b (a + 1) false (Config.mceElim z a (p.drop 22) (r.drop 22))) next
    | _ => .fail 0x06)

/-- MCE_KG_END: the private key, once the word of the last step has asked for it (R276). -/
def execMceKgEnd (id : EngId) (s : State) : Host.Outcome State Fault Refusal :=
  .next (s.libOp id (fun op => op == 0x92) LibIn.fixedTries fun x =>
    let j := x.key 1
    let z := mceJobSet j
    if !isJob j || (mceJobStep j).1 != 4 || !isGoppa j (x.key 0) then .fail 0x06
    else .ok (stepWord 6 0 0) (some (padTo (mceSk z) (Config.mceSk z ((x.key 0).drop 17)))) none)

/-- MCE_PK_OUT: public panel t as mt words (R276). -/
def execMcePkOut (id : EngId) (s : State) : Host.Outcome State Fault Refusal :=
  .next (s.libOp id (fun op => op == 0x93) LibIn.fixedTries fun x =>
    let j := x.key 1
    let z := mceJobSet j
    let t := leAt x.c.param 0 2
    let done := decide (t < mcePivots z)
    let p := x.key 2
    if !isJob j || (mceJobStep j).1 != 4 || decide (t < mceMt z / 32) || decide (mcePanels z ≤ t)
        || !isPanel j p t (if done then t + 1 else mcePivots z) done then .fail 0x06
    else .ok (padTo (4 * mceMt z) (Config.mcePanelOut z t (p.drop 22))) none none)

/-- An encapsulation job: tag, set, e (at most 128 positions of 2 bytes), the ciphertext bits gathered so far (at most 208
bytes), and a bit for each row covered. -/
def mceEncJob (z : Nat) (e st : Bytes) (covered : Nat) : Bytes :=
  natLe 1 4 ++ natLe 1 z ++ padTo 256 e ++ padTo 208 st ++ natLe 208 covered
def mceJobE (j : Bytes) : Bytes := (j.drop 2).take 256
def mceJobData (j : Bytes) : Bytes := (j.drop 2).take 464
def mceCovered (j : Bytes) : Nat := leAt j 466 208
def isEncJob (j : Bytes) : Bool := leAt j 0 1 == 4

/-- MCE_ENC_BEGIN draws e (R275). -/
def execMceEncBegin (id : EngId) (s : State) : Host.Outcome State Fault Refusal :=
  .next (s.libOp id (fun op => op == 0x94) LibIn.fixedTries fun x =>
    let z := x.c.pbyte 0
    .ok [] none (some (mceEncJob z (Config.mceE z x.rand) [] 0)))

/-- MCE_ENC_SEG absorbs rows that no segment has covered yet (R275). -/
def execMceEncSeg (id : EngId) (s : State) : Host.Outcome State Fault Refusal :=
  .next (s.libOp id (fun op => op == 0x95) LibIn.fixedTries fun x =>
    let j := x.key 1
    let z := leAt j 1 1
    let first := leAt x.c.param 0 2
    let n := leAt x.c.param 2 2
    let rows := (2 ^ n - 1) * 2 ^ first
    if !isEncJob j || decide (mceMt z < first + n) || Nat.land rows (mceCovered j) != 0 then .fail 0x06
    else .ok [] none (some (mceEncJob z (mceJobE j) (Config.mceRows z first (mceJobData j) x.c.input)
      (mceCovered j + rows))))

/-- MCE_ENC_END: ct and K, once every row is covered (R275). -/
def execMceEncEnd (id : EngId) (s : State) : Host.Outcome State Fault Refusal :=
  .next (s.libOp id (fun op => op == 0x96) LibIn.fixedTries fun x =>
    let j := x.key 1
    let z := leAt j 1 1
    let r := Config.mceCtK z (mceJobData j)
    if !isEncJob j || mceCovered j != 2 ^ mceMt z - 1 then .fail 0x06
    else .ok (padTo (mceCt z) r.1) (some (padTo 32 r.2)) none)

/-! ## Curves, hybrid handshakes, derivation (R277 to R279) -/

/-- Bytes of a share of X25519 (0) and X448 (1). -/
def xLen (z : Nat) : Nat := if z = 0 then 32 else 56

/-- The shared secret; none for a peer share of low order (R277). -/
def xSecret (z : Nat) (priv peer : Bytes) : Option Bytes :=
  let r := padTo (xLen z) (xShared z priv peer)
  if allZero r then none else some r

/-- X25519 and X448 key generation. -/
def execXKeygen (id : EngId) (s : State) : Host.Outcome State Fault Refusal :=
  .next (s.libOp id (fun op => op == 0x78 || op == 0x7A) LibIn.fixedTries fun x =>
    let z := (x.c.opcode - 0x78) / 2
    let priv := padTo (xLen z) x.rand
    .ok (padTo (xLen z) (xShare z priv)) (some priv) none)

/-- X25519 and X448 exchange. -/
def execXExchange (id : EngId) (s : State) : Host.Outcome State Fault Refusal :=
  .next (s.libOp id (fun op => op == 0x79 || op == 0x7B) LibIn.fixedTries fun x =>
    match xSecret ((x.c.opcode - 0x78) / 2) (x.key 0) x.c.input with
    | none => .fail 0x06
    | some r => .ok [] (some r) none)

/-- The customisation string of a session key. -/
def hybCust (z : Nat) : Bytes :=
  [0x41#8, 0x4B#8, 0x2D#8, 0x48#8, 0x59#8, 0x42#8, 0x2D#8]
    ++ (if z = 0 then [0x37#8, 0x36#8, 0x38#8] else [0x31#8, 0x30#8, 0x32#8, 0x34#8])

/-- The session key of a handshake (R278). -/
def hybKey (z : Nat) (kpq kec ct share : Bytes) (c : Call) : Bytes :=
  padTo 32 (kmac 256 (kpq ++ kec) (ct ++ share ++ c.param) (hybCust z) 32)

/-- The server side. -/
def execHybridServer (id : EngId) (s : State) : Host.Outcome State Fault Refusal :=
  .next (s.libOp id (fun op => op == 0x9C || op == 0x9E) LibIn.fixedTries fun x =>
    let z := (x.c.opcode - 0x9C) / 2
    let n := if z = 0 then 1088 else 1568
    let ct := x.c.input.take n
    let share := x.c.input.drop n
    match xSecret z (x.key 1) share with
    | none => .fail 0x06
    | some kec =>
      let kpq := padTo 32 (Config.kemDecaps (if z = 0 then 0x07 else 0x0D) (x.key 0) ct)
      .ok [] (some (hybKey z kpq kec ct share x.c)) none)

/-- The client side. -/
def execHybridClient (id : EngId) (s : State) : Host.Outcome State Fault Refusal :=
  .next (s.libOp id (fun op => op == 0x9D || op == 0x9F) LibIn.fixedTries fun x =>
    let z := (x.c.opcode - 0x9D) / 2
    let k := mlKem (if z = 0 then 0x07 else 0x0D)
    let ek := x.c.input.take k.ek
    let priv := padTo (xLen z) (x.rand.drop 32)
    if !modulusOk ek then .fail 0x06
    else match xSecret z priv (x.c.input.drop k.ek) with
    | none => .fail 0x06
    | some kec =>
      let r := Config.kemEncaps k.set ek (x.rand.take 32)
      let ct := padTo k.ct r.1
      let share := padTo (xLen z) (xShare z priv)
      .ok (ct ++ share) (some (hybKey z (padTo 32 r.2) kec ct share x.c)) none)

/-- First field, info and output length of a derivation (R279). -/
def LibIn.first (x : LibIn) : Bytes := x.c.input.take (x.c.aux / 256)
def LibIn.info (x : LibIn) : Bytes := x.c.input.drop (x.c.aux / 256)
def LibIn.outLen (x : LibIn) : Nat := x.c.aux % 128

/-- A derivation of output key 0. -/
def derive (f : LibIn → Bytes) (x : LibIn) : LibOut := .ok [] (some (padTo x.outLen (f x))) none

/-- HKDF-SHA-256. -/
def execHkdfSha256 (id : EngId) (s : State) : Host.Outcome State Fault Refusal :=
  .next (s.libOp id (fun op => op == 0xA0) LibIn.fixedTries
    (derive fun x => hkdf 256 (x.key 0) x.first x.info x.outLen))

/-- HKDF-SHA-384. -/
def execHkdfSha384 (id : EngId) (s : State) : Host.Outcome State Fault Refusal :=
  .next (s.libOp id (fun op => op == 0xA1) LibIn.fixedTries
    (derive fun x => hkdf 384 (x.key 0) x.first x.info x.outLen))

/-- KMAC128. -/
def execKmac128 (id : EngId) (s : State) : Host.Outcome State Fault Refusal :=
  .next (s.libOp id (fun op => op == 0xA2) LibIn.fixedTries
    (derive fun x => kmac 128 (x.key 0) x.info x.first x.outLen))

/-- KMAC256. -/
def execKmac256 (id : EngId) (s : State) : Host.Outcome State Fault Refusal :=
  .next (s.libOp id (fun op => op == 0xA3) LibIn.fixedTries
    (derive fun x => kmac 256 (x.key 0) x.info x.first x.outLen))

/-! ## User scores -/

/-- An Owner's score runs one peal of a call with a USER opcode: what its code leaves comes with the command (R202,
R222). -/
def execUserScoreCall (id : EngId) (out : Bytes) (status accept : BitVec 8) (key0 key1 : Option Bytes) (s : State) :
    Host.Outcome State Fault Refusal :=
  let i := id.idx
  .next (match (s.eng i).peal with
  | none => s
  | some p => match s.call p.call with
    | none => s
    | some c =>
      if (s.eng i).mode != .run || p.scrubbed || decide (c.opcode < 0xC0) then s
      else if s.kldBad i p.call then s.takeExc i .parity 5 0
      else (s.kldAll i p.call [0, 1, 2, 3]).libLeave i p accept.toNat
        { status := status.toNat, out := out, key0 := key0, key1 := key1 })

end Sys2Proof.Machine
end

