-- ==== Sys2Proof/Machine/Sd.lean ====
section
/-!
DEFINITION. The card host: insertion, modes, the journal, the card commands and FW_WRITE (R611 to R627). What the card
answers comes from outside, as operands.
-/
namespace Sys2Proof.Machine

/-! ## Journal entries (R620, R621) -/

/-- One bit step of CRC-32 (IEEE 802.3), reflected. -/
def crc32Bit (c : Nat) : Nat := if c.testBit 0 then (c / 2) ^^^ 0xEDB88320 else c / 2

/-- `n` bit steps. -/
def crc32Bits : Nat → Nat → Nat
  | 0, c => c
  | n + 1, c => withNat (crc32Bit c) (crc32Bits n)

/-- The bytes of a string, from a value of the register. -/
def crc32Run : Bytes → Nat → Nat
  | [], c => c
  | x :: t, c => withNat (crc32Bits 8 (c ^^^ x.toNat)) (crc32Run t)

/-- CRC-32 of a byte string (R620). -/
def crc32 (b : Bytes) : Nat := crc32Run b 0xFFFFFFFF ^^^ 0xFFFFFFFF

/-- A complete entry of the journal. -/
structure JEntry where
  jseq : Nat
  kind : Nat
  payLen : Nat
  block : Nat
  payBlocks : Nat
deriving DecidableEq, Repr

/-- A block of the partition. -/
def Sd.block (d : Sd) (b : Nat) : Bytes := rdBytes d.part (512 * b) 512

/-- A header or trailer by its MAGIC, with its CRC right (R620, R621). -/
def markOk (x : Bytes) (magic : Nat) : Bool := leAt x 0 4 == magic && leAt x 508 4 == crc32 (x.take 508)

/-- The complete entry at block `b`, after the entry numbered `prev` (R621). -/
def Sd.entryAt (d : Sd) (b : Nat) (prev : Option Nat) : Option JEntry :=
  let h := d.block b
  let n := leAt h 12 4
  let j := leAt h 8 4
  let t := d.block (b + 1 + n)
  let follows := match prev with | some p => j == (p + 1) % 2 ^ 32 | none => true
  if b + 2 + n ≤ d.blocks ∧ markOk h 0x314A4B41 = true ∧ follows = true ∧ markOk t 0x454A4B41 = true
      ∧ (t.drop 4).take 60 = (h.drop 4).take 60
  then some { jseq := j, kind := leAt h 6 1, payLen := leAt h 16 4, block := b, payBlocks := n } else none

/-- The complete entries from block `b` on, `f` looked for at most, and the block where the journal ends (R621). -/
def Sd.scan (d : Sd) : Nat → Nat → Option Nat → List JEntry × Nat
  | 0, b, _ => ([], b)
  | f + 1, b, prev => match d.entryAt b prev with
    | none => ([], b)
    | some e => let r := d.scan f (b + 2 + e.payBlocks) (some e.jseq)
                (e :: r.1, r.2)

/-- The journal. -/
def Sd.journal (d : Sd) : List JEntry × Nat := d.scan d.blocks 0 none

/-- JSEQ of the last complete entry; none on an empty partition. -/
def Sd.lastJseq (d : Sd) : Option Nat := d.journal.1.getLast?.map (·.jseq)

/-- The payload of an entry, and whether its DIGEST passes (R622). -/
def Sd.payload (d : Sd) (e : JEntry) : Bytes := rdBytes d.part (512 * (e.block + 1)) e.payLen
def Sd.digestOk (d : Sd) (e : JEntry) : Bool :=
  leAt (d.block e.block) 32 32 == (sha3_256 (d.payload e)).toNat

/-- A header or trailer block (R620). -/
def markBlock (magic kind jseq payBlocks payLen source opsec : Nat) (digest : BitVec 256) : Bytes :=
  let x := natLe 4 magic ++ natLe 2 1 ++ natLe 1 kind ++ natLe 1 0 ++ natLe 4 jseq ++ natLe 4 payBlocks ++ natLe 4 payLen
    ++ natLe 8 source ++ natLe 4 opsec ++ natLe 32 digest.toNat ++ List.replicate 444 0#8
  x ++ natLe 4 (crc32 x)

/-- The blocks of a new entry, with their numbers: header, payload, trailer (R620, R622). -/
def State.entryBlocks (s : State) (kind jseq at_ : Nat) (pay : Bytes) : List (Nat × Bytes) :=
  let n := (pay.length + 511) / 512
  let mark (magic : Nat) : Bytes :=
    markBlock magic kind jseq n pay.length s.otp.serial.toNat s.evr.opsec (sha3_256 pay)
  (at_, mark 0x314A4B41) :: ((List.range n).map fun k => (at_ + 1 + k, padTo 512 (pay.drop (512 * k))))
    ++ [(at_ + 1 + n, mark 0x454A4B41)]

/-! ## Answers (R624) -/

/-- The mailbox STATUS of a RESULT (R624). -/
def sdStatus (r : Nat) : Nat := [0x00, 0x05, 0x05, 0x05, 0x0B, 0x06, 0x06, 0x08, 0x08, 0x06].getD r 0x08

/-- An SDH source with its syndrome: SD command index, RESULT, block (R635). -/
def State.raiseSdh (s : State) (b cmd r block : Nat) : State :=
  s.raise blkSdh b (at32 (cmd % 64) 8 ||| at32 r 0) (BitVec.ofNat 32 block)

/-- Ends a command with a result other than DONE. -/
def State.sdFail (s : State) (i r : Nat) : State := s.answerMbx i (sdStatus r) [BitVec.ofNat 8 r]

/-- Ends a command with CARD_ERROR: the source and an SD command index that the manual leaves open (R616, R624). -/
def State.sdCardError (s : State) (i src block : Nat) : State :=
  ((s.useFree 1).raiseSdh src (Config.freeByte s.freeCtr).toNat 7 block).sdFail i 7

/-- RESULT DONE, three zero bytes and a word. -/
def doneWord (v : Nat) : Bytes := natLe 4 0 ++ natLe 4 v

/-! ## Insertion, initialisation, tuning (R611 to R615) -/

/-- What a removal takes away. -/
def Sd.removed (d : Sd) : Sd :=
  { d with present := false, ready := false, mode := 0, v18 := false, sdxc := false, capGib := 0, tap := 0, width := 0
           retune := false, part := [], blocks := 0, refused := false }

/-- A debounced change of SD_CD_N; a write that waits on busy ends under R617 (R615). -/
def execCardDetectChange (present : Bool) (s : State) : Host.Outcome State Fault Refusal :=
  .next (if !s.boot.power || s.boot.perst || present == s.sd.present then s
  else
    let d := if present then { s.sd.removed with present := true } else s.sd.removed
    State.raiseSdh { s with sd := d } 1 0 0 0)

/-- The highest mode the card supports and MAX_MODE permits, stepping down where tuning fails (R613, R614): the mode and
the tunings run. -/
def sdMode (c : CardInit) (maxMode : Nat) : Nat × Nat :=
  let can (m : Nat) : Bool := c.modes.getLsbD m && decide (m ≤ maxMode)
  let first := ([7, 6, 5, 4, 3].find? can).getD 3
  let rest := ([6, 5, 7, 4, 3].dropWhile fun m => m != first).filter can
  let tuned (m : Nat) : Bool := m == 5 || m == 6
  let tried := rest.takeWhile fun m => tuned m && !c.tuneOk.getLsbD m
  let m := (rest.drop tried.length).headD 3
  (m, tried.length + b2n (tuned m))

/-- Initialisation ends: mode, signalling, and READY for a service card (R611 to R614, R619). -/
def execCardInitDone (card : CardInit) (s : State) : Host.Outcome State Fault Refusal :=
  .next (if !s.sd.present || s.sd.ready || s.sd.refused then s
  else
    let maxMode := fld (s.reg 0xC00008) 0 4
    let v18 := card.v18 && decide (3 ≤ maxMode) && card.switchOk
    let m := if v18 then sdMode card maxMode
      else (if card.modes.getLsbD 2 && decide (2 ≤ maxMode) then 2 else 1, 0)
    let ok := card.supported && card.partition.isSome
    let b := card.partition.getD []
    let tuned := decide (0 < m.2)
    { s with sd := { s.sd with
      ready := ok, refused := !ok, mode := m.1, v18 := v18, sdxc := card.sdxc, capGib := card.capGib.toNat
      tap := if tuned then card.tap.toNat else 0, width := if tuned then card.width.toNat else 0
      tunes := (s.sd.tunes + m.2) % 256, tuneTemp := s.tmp.tj, retune := false
      part := memOf b, blocks := b.length / 512 } })

/-- A renewed tuning before a command, after a data CRC error or a move of 10 °C; tap and width are what it finds (R614).
-/
def State.sdRetune (s : State) : State :=
  let d := s.sd
  let moved := decide (80 ≤ (s.tmp.tj.toInt - d.tuneTemp.toInt).natAbs)
  if (d.mode = 5 ∨ d.mode = 6) ∧ (d.retune || moved) = true then
    { (s.useFree 2) with sd := { d with
      tap := (Config.freeByte s.freeCtr).toNat % 128, width := (Config.freeByte (s.freeCtr + 1)).toNat % 128
      tunes := (d.tunes + 1) % 256, tuneTemp := s.tmp.tj, retune := false } }
  else s

/-! ## Commands (R623) -/

/-- Runs a card command of instance `i`: without a card, or with one that cannot serve, it ends; while the card is
initialised, or another write goes on, it waits (R611, R615, R627). -/
def State.sdRun (s : State) (i : Nat) (f : State → State) : State :=
  if !s.sd.present then s.sdFail i 1
  else if s.sd.refused then s.sdFail i 2
  else if !s.sd.ready || s.sd.job.isSome then s
  else f s.sdRetune

/-- A read of the card meets a data CRC error (R614, R616). -/
def State.sdCrc (s : State) (i : Nat) : State := State.sdCardError { s with sd := { s.sd with retune := true } } i 3 0

/-- SD_INFO (R623). -/
def execSdInfo (inst : BitVec 8) (crcError : Bool) (s : State) : Host.Outcome State Fault Refusal :=
  let i := inst.toNat
  .next (s.mbxRun i 0x40 fun _ s => s.sdRun i fun s =>
    if crcError then s.sdCrc i
    else
      let d := s.sd
      s.answerMbx i 0x00 (natLe 4 0 ++ natLe 4 s.sdhStat.toNat ++ natLe 4 (d.lastJseq.getD 0) ++ natLe 4 (d.blocks - d.journal.2)))

/-- SD_LIST: the table of complete entries (R623). -/
def execSdList (inst : BitVec 8) (crcError : Bool) (s : State) : Host.Outcome State Fault Refusal :=
  let i := inst.toNat
  .next (s.mbxRun i 0x41 fun p s => s.sdRun i fun s =>
    if crcError then s.sdCrc i
    else
      let l := s.sd.journal.1
      let tab := l.flatMap fun e => natLe 4 e.jseq ++ natLe 1 e.kind ++ natLe 3 0 ++ natLe 4 e.payLen ++ natLe 4 e.block
      s.answerBuf i (bufAddr p 0) (bufLen p 0) tab (doneWord l.length))

/-- The payload of the entry of a JSEQ, or the RESULT that says why there is none (R622, R624). -/
def Sd.find (d : Sd) (jseq : Nat) : Nat × Bytes :=
  match d.journal.1.find? fun e => e.jseq == jseq with
  | none => (5, [])
  | some e => if d.digestOk e then (0, d.payload e) else (6, [])

/-- NOT_FOUND, or CORRUPT with its source. -/
def State.sdMissing (s : State) (i r : Nat) : State := if r = 6 then (s.raiseSdh 3 0 6 0).sdFail i 6 else s.sdFail i r

/-- SD_READ (R623). -/
def execSdRead (inst : BitVec 8) (crcError : Bool) (s : State) : Host.Outcome State Fault Refusal :=
  let i := inst.toNat
  .next (s.mbxRun i 0x42 fun p s => s.sdRun i fun s =>
    if crcError then s.sdCrc i
    else match s.sd.find (leAt p 0 4) with
      | (0, b) => s.answerBuf i (bufAddr p 4) (bufLen p 4) b [0#8]
      | (r, _) => s.sdMissing i r)

/-- A write of a new entry begins with its header block (R618, R622). -/
def State.sdBegin (s : State) (i kind : Nat) (pay : Bytes) (wp : Bool) : State :=
  let d := s.sd
  let s := { s with sd := { d with wp := wp } }
  let e := d.journal
  let n := (pay.length + 511) / 512
  if wp then (s.raiseSdh 0 0 3 0).sdFail i 3
  else if d.blocks < e.2 + n + 2 then s.sdFail i 4
  else
    let j := match d.lastJseq with | some k => (k + 1) % 2 ^ 32 | none => 1
    State.takeMbx { s with sd := { s.sd with
      job := some { owed := some i, kind := kind, jseq := j, blocks := s.entryBlocks kind j e.2 pay } } } i

/-- SD_WRITE: a KIND outside 0x01 to 0x03 is malformed (R622, R623; log entry 52). -/
def execSdWrite (inst : BitVec 8) (payload : HostRead) (wp : Bool) (s : State) : Host.Outcome State Fault Refusal :=
  let i := inst.toNat
  .next (s.mbxRun i 0x43 fun p s =>
    let kind := leAt p 0 1
    if kind = 0 ∨ 3 < kind then s.answerMbx i 0x01 []
    else s.sdRun i fun s => match s.readBuf i (bufAddr p 4) (bufLen p 4) payload with
      | (none, s) => s.answerMbx i 0x10 []
      | (some b, s) => s.sdBegin i kind b wp)

/-- The payload of a log export: the ring from HEAD to TAIL, then the used last-gasp slots (R620). -/
def Evr.export (e : Evr) : Bytes :=
  let n := (e.tail + ringSize - e.head) % ringSize
  ((List.range n).map fun k => rdByte e.ring ((e.head + k) % ringSize)) ++ rdBytes e.lg 0 (0x60 * e.lgUsed)

/-- SD_LOG_EXPORT (R623). -/
def execSdLogExport (inst : BitVec 8) (wp : Bool) (s : State) : Host.Outcome State Fault Refusal :=
  let i := inst.toNat
  .next (s.mbxRun i 0x44 fun _ s => s.sdRun i fun s => s.sdBegin i 4 s.evr.export wp)

/-! ## The blocks of a write (R616 to R618, R622) -/

/-- The answer of a write that ends, where its mailbox still awaits it. -/
def State.jobAnswer (s : State) (j : SdJob) (f : State → Nat → State) : State :=
  let s := { s with sd := { s.sd with job := none } }
  match j.owed with
  | some i => f s i
  | none => s

/-- The number of the block in flight. -/
def SdJob.at_ (j : SdJob) : Nat := (j.blocks.headD (0, [])).1

/-- A block whose programming the card did not confirm: what it holds is open (R617). -/
def State.openBlock (s : State) (b : Nat) : State :=
  let x := (List.range 512).map fun k => Config.freeByte (s.freeCtr + k)
  { (s.useFree 512) with sd := { s.sd with part := wrBytes s.sd.part (512 * b) x } }

/-- WRITE_UNCERTAIN (R617, R624). -/
def State.jobUncertain (s : State) (j : SdJob) : State :=
  let s := { s with sd := { s.sd with cntUncertain := s.sd.cntUncertain + 1#32 } }
  (s.raiseSdh 4 13 8 j.at_).jobAnswer j fun s i => s.sdFail i 8

/-- CARD_ERROR on a write. -/
def State.jobError (s : State) (j : SdJob) (src cmd : Nat) : State :=
  ((s.openBlock j.at_).raiseSdh src cmd 7 j.at_).jobAnswer j fun s i => s.sdFail i 7

/-- DAT0 ends busy and CMD13 answers: the block is confirmed and the next one follows, or the command ends (R617, R618,
R622). -/
def execSdWriteBusyEnd (answer : Cmd13) (wp : Bool) (s : State) : Host.Outcome State Fault Refusal :=
  .next (match s.sd.job with
  | none => s
  | some j =>
    let s := { s with sd := { s.sd with wp := wp } }
    match (if s.sd.present then answer else .noResponse) with
    | .noResponse => s.jobUncertain j
    | .errorBits => s.jobError j 2 13
    | .confirmed =>
      let b := j.blocks.headD (0, [])
      let rest := j.blocks.drop 1
      let s := { s with sd := { s.sd with part := wrBytes s.sd.part (512 * b.1) b.2 } }
      if rest.isEmpty then
        let s := { s with sd := { s.sd with cntWrite := s.sd.cntWrite + 1#32 } }
        s.jobAnswer j fun s i => s.answerMbx i 0x00 (doneWord j.jseq)
      else if wp then (s.raiseSdh 0 12 3 j.at_).jobAnswer j fun s i => s.sdFail i 3
      else { s with sd := { s.sd with job := some { j with blocks := rest } } })

/-- A card command of instance 0 is at its turn and reads the card. -/
def State.sdReading (s : State) : Bool :=
  s.sd.present && s.sd.ready && s.sd.job.isNone
    && ([0x40, 0x41, 0x42].any (fun c => s.mbxTurn 0 c) || (s.mbxTurn 0 0x39 && leAt (s.inst 0).mbx.payload 0 1 == 1))

/-- A card wait expires (R616). -/
def execSdTimeout (wait : SdWait) (s : State) : Host.Outcome State Fault Refusal :=
  .next (match wait with
  | .init =>
    if s.sd.present && !s.sd.ready && !s.sd.refused then
      State.raiseSdh { (s.goTo (s.g + beatsPerSec)) with sd := { s.sd with refused := true } } 2 41 7 0
    else s
  | .busy => match s.sd.job with
    | some j =>
      let s := s.goTo (s.g + msBeats 500)
      (s.useFree 1).jobError j 3 (Config.freeByte s.freeCtr).toNat
    | none => s
  | .response => match s.sd.job with
    | some j => (s.useFree 1).jobError j 2 (Config.freeByte s.freeCtr).toNat
    | none => if s.sdReading then s.sdCardError 0 2 0 else s
  | .readData => if s.sdReading then (s.goTo (s.g + msBeats 100)).sdCardError 0 3 0 else s)

/-! ## FW_WRITE (R626) -/

/-- An image that FW_WRITE accepts: R538 or the patch rules, the fail count aside (R626). -/
def State.imageAccepted (s : State) (b : Bytes) : Bool :=
  s.firmwareOk b || (s.patchOk b && decide (s.otp.patchMin ≤ imgSvn b))

/-- The image stands in its region; a slot that is rewritten loses its fail count and is valid with the image's SVN (R539,
R549, R626; log entry 74). -/
def State.storeImage (s : State) (b : Bytes) : State :=
  let x := b.take (4736 + leAt b 16 4)
  if leAt b 6 1 = 2 then { s with nor := { s.nor with patch := x } }
  else if s.boot.slot = 0 then
    { s with nor := { s.nor with slotB := x }, boot := { s.boot with failsB := 0, bValid := true, bSvn := imgSvn x } }
  else { s with nor := { s.nor with slotA := x }, boot := { s.boot with failsA := 0, aValid := true, aSvn := imgSvn x } }

/-- The end of FW_WRITE with an image. -/
def State.fwFinish (s : State) (i : Nat) (b : Bytes) : State :=
  if s.imageAccepted b then (s.storeImage b).answerMbx i 0x00 [0#8] else s.sdFail i 9

/-- FW_WRITE: an image from a host buffer or from a card entry (R623, R626). -/
def execFwWrite (inst : BitVec 8) (image : HostRead) (s : State) : Host.Outcome State Fault Refusal :=
  let i := inst.toNat
  .next (s.mbxRun i 0x39 fun p s =>
    match leAt p 0 1 with
    | 0 => match s.readBuf i (bufAddr p 8) (bufLen p 8) image with
      | (none, s) => s.answerMbx i 0x10 []
      | (some b, s) => s.fwFinish i b
    | 1 => s.sdRun i fun s => match s.sd.find (leAt p 4 4) with
      | (0, b) => s.fwFinish i b
      | (r, _) => s.sdMissing i r
    | _ => s.answerMbx i 0x01 [])

end Sys2Proof.Machine
end

