-- ==== Sys2Proof/Machine/Mgt.lean ====
section
/-!
DEFINITION. The management port (R630 to R632): what a transaction changes, and what its read returns.
-/
namespace Sys2Proof.Machine

/-- The bus is enabled, and the write's PEC passes where SMBus asks for one (R630, R635). -/
def State.busOk (s : State) : MgtBus → Bool
  | .i3c => bit32 (s.reg 0xD00004) 1
  | .smbus pec => bit32 (s.reg 0xD00004) 0 && pec

/-- MGT_STAT.BUS for a bus. -/
def mgtBusCode : MgtBus → Nat
  | .i3c => 1
  | .smbus _ => 2

/-- From when a code is answered: 0 bring-up phase 2, 1 readiness; none for a code not listed (R631). -/
def mgtFrom (code : Nat) : Option Nat :=
  if code = 1 ∨ code = 2 then some 0
  else if code = 3 ∨ code = 4 ∨ code = 5 ∨ code = 0x10 ∨ code = 0x11 ∨ code = 0x12 then some 1
  else none

/-- The code is listed, and the point its row gives has come (R631). -/
def State.mgtOpen (s : State) (code : Nat) : Bool :=
  s.boot.power && !s.boot.perst && match mgtFrom code with
    | some 0 => decide (2 ≤ s.boot.phase)
    | some _ => s.boot.ready
    | none => false

/-- The transaction is not acknowledged. -/
def State.mgtNack (s : State) : State := { s with mgt := { s.mgt with answer := none } }

/-- The transaction is acknowledged, with the data its read returns. -/
def State.mgtAck (s : State) (bus : MgtBus) (code : Nat) (data : Bytes) : State :=
  { s with mgt := { s.mgt with bus := mgtBusCode bus, lastCmd := code, answer := some data } }

/-- One transaction: acknowledged where its bus, its code and a further condition allow it (R630, R631). -/
def State.mgtRun (s : State) (bus : MgtBus) (code : Nat) (ok : Bool) (f : State → State) : State :=
  if !s.boot.power || s.boot.perst then s
  else if s.busOk bus && s.mgtOpen code && ok then f s else s.mgtNack

/-- GET_ID (R631). -/
def execGetId (bus : MgtBus) (s : State) : Host.Outcome State Fault Refusal :=
  .next (s.mgtRun bus 0x01 true fun s =>
    let serial := if s.lcc.decoded then s.otp.serial.toNat else 0
    let stat := if s.lcc.decoded then s.lccStat.toNat else 0
    s.mgtAck bus 0x01 (padTo 32 (natLe 2 (fnConfig 0).vendor ++ natLe 2 (fnConfig 0).device ++ natLe 8 serial ++ natLe 4 stat ++ natLe 4 s.boot.fwVer.toNat)))

/-- GET_STATUS (R631). -/
def execGetStatus (bus : MgtBus) (s : State) : Host.Outcome State Fault Refusal :=
  .next (s.mgtRun bus 0x02 true fun s =>
    s.mgtAck bus 0x02 ([s.supBootStat, s.supResetCause, s.tmpStat, s.tmpTemp, s.tmpEvidence,
      if s.ent.started then s.entStat else 0#32, if s.evr.restored then s.evrStat else 0#32, s.hiuStat].flatMap
        fun w => natLe 4 w.toNat))

/-- SET_OFFSET (R631). -/
def execSetOffset (bus : MgtBus) (offset : BitVec 32) (s : State) : Host.Outcome State Fault Refusal :=
  .next (s.mgtRun bus 0x03 true fun s =>
    State.mgtAck { s with mgt := { s.mgt with offset := offset.toNat } } bus 0x03 [])

/-- CERT_LEN (R631). -/
def execCertLen (bus : MgtBus) (s : State) : Host.Outcome State Fault Refusal :=
  .next (s.mgtRun bus 0x04 true fun s => s.mgtAck bus 0x04 (natLe 4 s.certChain.length))

/-- The offset moves on by 64. -/
def State.mgtAdvance (s : State) : State := { s with mgt := { s.mgt with offset := (s.mgt.offset + 64) % 2 ^ 32 } }

/-- READ_CERT (R631). -/
def execReadCert (bus : MgtBus) (s : State) : Host.Outcome State Fault Refusal :=
  .next (s.mgtRun bus 0x05 true fun s => s.mgtAdvance.mgtAck bus 0x05 (padTo 64 (s.certChain.drop s.mgt.offset)))

/-- ATTEST_START: the offset becomes 0 and the state busy, or refused during a response (R631, R632). -/
def execAttestStart (bus : MgtBus) (nonce : Bytes) (s : State) : Host.Outcome State Fault Refusal :=
  .next (s.mgtRun bus 0x10 (bit32 (s.reg 0xD00004) 2 && s.mgt.attest != 1 && nonce.length == 32) fun s =>
    State.mgtAck { s with mgt := { s.mgt with
      offset := 0, nonce := nonce, report := [], attest := if s.alarm then 3 else 1 } } bus 0x10 [])

/-- The report is signed and ready (R632, R633). -/
def execAttestReportReady (s : State) : Host.Outcome State Fault Refusal :=
  .next (if s.mgt.attest = 1 then { s with mgt := { s.mgt with attest := 2, report := s.report 1 s.mgt.nonce } } else s)

/-- ATTEST_STATE (R631). -/
def execAttestState (bus : MgtBus) (s : State) : Host.Outcome State Fault Refusal :=
  .next (s.mgtRun bus 0x11 true fun s => s.mgtAck bus 0x11 (natLe 1 s.mgt.attest))

/-- READ_REPORT, in state 2 (R631). -/
def execReadReport (bus : MgtBus) (s : State) : Host.Outcome State Fault Refusal :=
  .next (s.mgtRun bus 0x12 (s.mgt.attest == 2) fun s =>
    s.mgtAdvance.mgtAck bus 0x12 (padTo 64 (s.mgt.report.drop s.mgt.offset)))

/-- SETDASA or ENTDAA assigns the dynamic address (R630). -/
def execI3cAddressAssign (addr : BitVec 7) (s : State) : Host.Outcome State Fault Refusal :=
  .next (if s.boot.power && !s.boot.perst && s.busOk .i3c then
    { s with mgt := { s.mgt with dyn := addr.toNat, bus := 1 } } else s)

/-- A code not listed, or before its point, is not acknowledged (R631). -/
def execMgtUnlistedCode (code : BitVec 8) (s : State) : Host.Outcome State Fault Refusal :=
  .next (if s.boot.power && !s.boot.perst && !s.mgtOpen code.toNat then s.mgtNack else s)

/-- MGT_STAT (R635). -/
def State.mgtStat (s : State) : W32 :=
  at32 s.mgt.bus 30 ||| at32 (s.mgt.dyn % 128) 16 ||| at32 s.mgt.attest 8 ||| at32 (s.mgt.lastCmd % 256) 0

end Sys2Proof.Machine
end

