-- ==== Sys2Proof/Machine/Predicate.lean ====
section
/-!
DEFINITION. Predicate instructions (R127) and vector compares (R128).
-/
namespace Sys2Proof.Machine

/-- The timing row of a predicate word that writes pd (R181). -/
def predRow (f : VP) (legal : Bool) (reads : List Loc) : Row :=
  { legal := legal && f.zero == 0#33, vec := true, reads := reads, writes := [(.p f.pd.toNat, 2)] }

/-- A two-operand predicate operation. -/
def predOp (id : EngId) (f : VP) (op : PReg → PReg → PReg) : State → Host.Outcome State Fault Refusal :=
  issueWord id
    (fun _ => predRow f (f.sd == 0#5 && f.sa == 0#5) [.p f.pa.toNat, .p f.pb.toNat])
    (onEngine id fun e => e.setPreg f.pd.toNat (op (e.preg f.pa.toNat) (e.preg f.pb.toNat)))

/-- PAND. -/
def execPand (id : EngId) (f : VP) (s : State) : Host.Outcome State Fault Refusal := predOp id f (fun a b => a &&& b) s
/-- POR. -/
def execPor (id : EngId) (f : VP) (s : State) : Host.Outcome State Fault Refusal := predOp id f (fun a b => a ||| b) s
/-- PXOR. -/
def execPxor (id : EngId) (f : VP) (s : State) : Host.Outcome State Fault Refusal := predOp id f (fun a b => a ^^^ b) s
/-- PANDN. -/
def execPandn (id : EngId) (f : VP) (s : State) : Host.Outcome State Fault Refusal :=
  predOp id f (fun a b => a &&& ~~~b) s

/-- PNOT. -/
def execPnot (id : EngId) (f : VP) (s : State) : Host.Outcome State Fault Refusal :=
  issueWord id (fun _ => predRow f (f.pb == 0#3 && f.sd == 0#5 && f.sa == 0#5) [.p f.pa.toNat])
    (onEngine id fun e => e.setPreg f.pd.toNat (~~~(e.preg f.pa.toNat))) s

/-- PSETN: the low min(s[sa], 512) bits set, the rest clear. -/
def execPsetn (id : EngId) (f : VP) (s : State) : Host.Outcome State Fault Refusal :=
  issueWord id (fun _ => predRow f (f.pa == 0#3 && f.pb == 0#3 && f.sd == 0#5) [.s f.sa.toNat])
    (onEngine id fun e => e.setPreg f.pd.toNat (BitVec.ofNat 512 (2 ^ min (e.sreg f.sa.toNat).toNat 512 - 1))) s

/-- PCNT: the number of set bits. -/
def execPcnt (id : EngId) (f : VP) (s : State) : Host.Outcome State Fault Refusal :=
  issueWord id
    (fun _ => { legal := f.pd == 0#3 && f.pb == 0#3 && f.sa == 0#5 && f.zero == 0#33, vec := true
                reads := [.p f.pa.toNat], writes := [(.s f.sd.toNat, 2)] })
    (onEngine id fun e => e.setSreg f.sd.toNat (BitVec.ofNat 64 (popcount (e.preg f.pa.toNat).toNat 512))) s

/-- The predicate after a compare: active bits take the outcome, bits at or above the count are 0, other bits keep
their values (R128). -/
def cmpPred (act : Nat → Bool) (out : Nat → Bool) (cnt : Nat) (p : PReg) : PReg :=
  BitVec.ofBoolListLE ((List.range 512).map fun i =>
    if cnt ≤ i then false else if act i then out i else p.getLsbD i) |>.setWidth 512

/-- A vector compare (R128). -/
def vecCompare (id : EngId) (f : VV) (op : Nat → Nat → Nat → Bool) : State → Host.Outcome State Fault Refusal :=
  let w := widthOf f.w
  issueWord id
    (fun _ => { legal := vvFree f && decide (f.vd.toNat < 8) && pairOk f.pr f.w [f.va, f.vb]
                vec := true
                reads := [.vl, .p f.pm.toNat] ++ formRegs f.pr f.va.toNat ++ formRegs f.pr f.vb.toNat
                writes := [(.p f.vd.toNat, if f.pr then 18 else 10)]
                holds := [(.vxu, if f.pr then 16 else 8)] })
    (onEngine id fun e =>
      let a := e.wide f.pr f.va.toNat
      let b := e.wide f.pr f.vb.toNat
      e.setPreg f.vd.toNat
        (cmpPred (e.active w f.pr f.pm) (fun i => op w (lane w a i) (lane w b i)) (countOf w f.pr)
          (e.preg f.vd.toNat)))

/-- VCMPEQ. -/
def execVcmpeq (id : EngId) (f : VV) (s : State) : Host.Outcome State Fault Refusal :=
  vecCompare id f (fun _ a b => a == b) s
/-- VCMPLTU. -/
def execVcmpltu (id : EngId) (f : VV) (s : State) : Host.Outcome State Fault Refusal :=
  vecCompare id f (fun _ a b => decide (a < b)) s
/-- VCMPLTS. -/
def execVcmplts (id : EngId) (f : VV) (s : State) : Host.Outcome State Fault Refusal :=
  vecCompare id f (fun w a b => decide (toSigned w a < toSigned w b)) s

end Sys2Proof.Machine
end

