-- ==== Sys2Proof/Machine/RegView.lean ====
section
/-!
DEFINITION. The registers of PF BAR0 as they read: value, role letters and writable bits of each (R43, R101, R102, R240,
R241, R336, R337, R397, R398, R448, R449, R474, R475, R528, R529, R548, R549, R576, R577, R608 to R610, R634, R635, R661,
R662).
-/
namespace Sys2Proof.Machine

/-- A register as software meets it. -/
structure View where
  /-- What its fields hold; bits that read as 0 whatever they hold are 0 here. -/
  val : W32
  /-- Bits whose fields carry the letter M; in the page of an instance, the letter T (R18, R400). -/
  m : W32
  /-- Bits whose fields carry the letter S. -/
  s : W32
  /-- Bits of RW, RWL and RWS fields (R17). -/
  rw : W32
  /-- Bits of W1C and WO fields (R17). -/
  w1 : W32
deriving DecidableEq, Repr

abbrev ones : W32 := 0xFFFFFFFF#32

/-- A read-only register of Manager and Supervisor. -/
def View.ro (v : W32) : Option View := some ⟨v, ones, ones, 0#32, 0#32⟩
/-- A register with fields that the Manager alone reads and writes. -/
def View.rwM (v rw : W32) : Option View := some ⟨v, ones, 0#32, rw, 0#32⟩
/-- A register with fields that the Supervisor alone reads and writes. -/
def View.rwS (v rw : W32) : Option View := some ⟨v, 0#32, ones, rw, 0#32⟩

/-- The word of a number. -/
def w32 (n : Nat) : W32 := BitVec.ofNat 32 n

/-- The low `n` bits. -/
def lowMask (n : Nat) : W32 := BitVec.ofNat 32 (2 ^ n - 1)

/-- The fault registers of a block, from its FSTAT on: FSTAT, FEN, FFORCE, FSYN0, FSYN1, FMERGE (R585; of SUP, R608). -/
def State.faultView (s : State) (blk k : Nat) : Option View :=
  let f := s.fault blk
  let mask := lowMask (sourceCount blk)
  match k with
  | 0 => some ⟨f.fstat, ones, ones, 0#32, mask⟩
  | 1 => some ⟨f.fen, ones, ones, mask, 0#32⟩
  | 2 => some ⟨0#32, ones, ones, 0#32, mask⟩
  | 3 => View.ro f.fsyn0
  | 4 => View.ro f.fsyn1
  | 5 => View.ro (w32 f.fmerge)
  | _ => none

/-- The fault registers at offsets 0x100 to 0x114 of a region. -/
def State.faultAt (s : State) (blk o : Nat) : Option View :=
  if 0x100 ≤ o ∧ o < 0x118 ∧ o % 4 = 0 then s.faultView blk ((o - 0x100) / 4) else none

/-! ## Codes of states -/

/-- QP_STAT.STATE and HIU_INST_STAT.STATE (R398, R400). -/
def InstState.code : InstState → Nat
  | .active => 0 | .quiescing => 1 | .quiesced => 2 | .frozen => 3 | .saved => 4 | .inFlr => 5

/-- DE_CL_STAT.VPWR (R102). -/
def VPwr.code : VPwr → Nat
  | .off => 0 | .waking => 1 | .on => 2 | .gating => 3

/-- DGE_CX_STAT.STATE (R493). -/
def CtxSt.code : CtxSt → Nat
  | .free => 0 | .opened => 1 | .run => 2 | .done => 3

/-- DMA_CH_STAT.STATE (R506). -/
def ChSt.code : ChSt → Nat
  | .idle => 0 | .run => 1 | .pausing => 2 | .paused => 3 | .done => 4 | .halted => 5

/-- An engine is out of service while it is neither in a peal nor HALTED (R107). -/
def State.engOut (s : State) (i : Nat) : Bool :=
  !(s.cl (i / 32)).inService || (s.eng i).needReload || (s.eng i).loading.isSome

/-- DE_ENG_STAT.STATE (R102, R107): a detached engine that the debugger resumed reads RUN. -/
def State.engState (s : State) (i : Nat) : Nat :=
  let e := s.eng i
  if e.mode == .halted then 2
  else if e.peal.isSome then 1
  else if s.engOut i then 3
  else if e.mode == .resumed || e.mode == .stepping then 1
  else 0

/-- A call planned on engine `i` that has not ended there. -/
def State.callOn (s : State) (i : Nat) (p : Call → Bool) : Option Call :=
  ((s.allCalls.find? fun e => isEngineOp e.2.opcode && p e.2 && e.2.place.any fun h => h.unit == i && h.res.isNone)).map (·.2)

/-- SCH_SLOT.STATE (R241; log entry 54). Before the cluster's first self-test in bring-up it reads its reset value 0 (log entry
106). -/
def State.slotCode (s : State) (i : Nat) : Nat :=
  let e := s.eng i
  if e.peal.isSome then 2
  else if (s.callOn i fun c => c.st == .between).isSome then 3
  else if (s.callOn i fun c => c.st == .staging || c.st == .staged).isSome then 1
  else if e.loading.isSome then 4
  else if s.engOut i && (s.boot.ready || (s.cl (i / 32)).selftest != 0xFF) then 5
  else 0

/-- SCH_SLOT (R241). -/
def State.schSlot (s : State) (i : Nat) : W32 :=
  let e := s.eng i
  let call : Option Call := match e.peal with
    | some p => s.call p.call
    | none => s.callOn i fun c => c.st == .staging || c.st == .staged || c.st == .between
  at32 (s.slotCode i) 29 ||| flagAt (e.frames.getLsbD 0) 28 ||| flagAt (e.frames.getLsbD 1) 27
    ||| at32 ((call.map (·.inst)).getD 0) 16 ||| at32 ((e.resident.map (·.index)).getD 0x7F) 8

/-! ## HIU (R397, R398) -/

/-- HIU_INST_STAT (R398) and VF_STAT (R400) but for RESET_REFUSED. -/
def State.instStat (s : State) (i : Nat) : W32 :=
  at32 (s.inst i).st.code 29 ||| at32 (min (s.instWaiting i) 0x7FF) 16 ||| at32 (min (s.instActive i) 0x3FFF) 0

/-- The four words of an MSI-X entry (R378); only the host reaches it (log entry 9). -/
def State.msixView (s : State) (i v k : Nat) : Option View :=
  let e := s.msixOf i v
  match k with
  | 0 => View.rwM e.addrLo 0xFFFFFFFC#32
  | 1 => View.rwM e.addrHi ones
  | 2 => View.rwM e.data ones
  | _ => View.rwM (flagAt e.masked 0) 1#32

/-- 32 pending bits of an instance from vector `v` on (R378). -/
def State.pbaWord (s : State) (i v : Nat) : W32 :=
  w32 (((List.range 32).map fun j => if (s.msixOf i (v + j)).pend then 2 ^ j else 0).foldl (· + ·) 0)

/-- The registers of an instance: CTRL, STAT, LIMIT, BUDGET. -/
def State.instView (s : State) (i k : Nat) : Option View :=
  let x := s.inst i
  match k with
  | 0 => some ⟨flagAt x.freeze 1 ||| flagAt x.quiesce 0, ones, 0#32, 3#32, 4#32⟩
  | 1 => some ⟨s.instStat i ||| flagAt x.resetRefused 28, ones, 0xEFFFFFFF#32, 0#32, 0x10000000#32⟩
  | 2 => View.rwM (s.reg (instReg i + 8)) 0x3FFF#32
  | _ => View.rwM (s.reg (instReg i + 12)) ones

/-- The words of a window: base low and high, pages, control. -/
def State.winView (s : State) (o k : Nat) : Option View :=
  View.rwM (s.reg o) (match k with | 0 => 0xFFFFF000#32 | 3 => 3#32 | _ => ones)

/-- The HIU region, the page of instance 0 apart. -/
def State.hiuView (s : State) (o : Nat) : Option View :=
  if o = 0x0 then View.ro 0x01FF1000#32
  else if o = 0x4 then View.ro s.hiuStat
  else if o = 0x8 then
    View.ro (at32 (0x2000 - ((List.range 256).map fun i => s.instPlaces i).foldl (· + ·) 0) 16 ||| at32 s.allocSum 0)
  else if 0x100 ≤ o ∧ o < 0x118 then s.faultAt blkHiu o
  else if 0x200 ≤ o ∧ o < 0x210 then View.ro (s.reg o)
  else if 0x1000 ≤ o ∧ o < 0x2000 then s.instView ((o - 0x1000) / 16) (o % 16 / 4)
  else if 0x10000 ≤ o ∧ o < 0x18000 then s.winView o (o % 16 / 4)
  else if 0x80000 ≤ o ∧ o < 0x80400 then s.msixView 0 ((o - 0x80000) / 16) (o % 16 / 4)
  else if o = 0x81000 then View.ro (s.pbaWord 0 0)
  else if o = 0x81004 then View.ro (s.pbaWord 0 32)
  else none

/-! ## The page of an instance (R399, R400) -/

/-- QP_CTRL as it reads: EN is 1 from its setting to its clearing. -/
def State.qpCtrl (s : State) (i q : Nat) : W32 :=
  let x := s.queue i q
  (s.reg (qpReg i q) &&& qpCfgMask) ||| flagAt (x.st == .running || x.st == .stalled || x.st == .halted) 31

/-- QP_STAT. -/
def State.qpStat (s : State) (i q : Nat) : W32 :=
  let x := s.queue i q
  at32 x.st.code 29 ||| at32 x.haltCause 24 ||| flagAt x.cfgErr 23 ||| at32 (min x.ready.length 127) 16
    ||| at32 (min x.active 0xFFFF) 0

/-- A field row of the letter T. -/
def View.roT (v : W32) : Option View := some ⟨v, ones, 0#32, 0#32, 0#32⟩

/-- The registers of a queue. -/
def State.qpView (s : State) (i q k : Nat) : Option View :=
  let x := s.queue i q
  let a := qpReg i q
  match k with
  | 0 => View.rwM (s.qpCtrl i q) (qpCfgMask ||| 0x80000000#32)
  | 1 => View.roT (s.qpStat i q)
  | 2 => View.rwM (s.reg (a + 0x08)) 0xFFFFF000#32
  | 3 => View.rwM (s.reg (a + 0x0C)) ones
  | 4 => View.rwM (s.reg (a + 0x10)) 0xFFFFF000#32
  | 5 => View.rwM (s.reg (a + 0x14)) ones
  | 6 => View.roT (x.sqHead.setWidth 32)
  | 7 => View.roT (at32 (phaseOf x.cqTail.toNat (s.cqSize i q)) 16 ||| x.cqTail.setWidth 32)
  | 8 => View.roT x.cntDone
  | 9 => View.roT x.cntDiscard
  | _ => none

/-- MBX_STAT. -/
def Mailbox.stat (m : Mailbox) : W32 :=
  flagAt m.busy 31 ||| flagAt m.outValid 30 ||| flagAt m.overrun 29 ||| at32 (m.seq % 256) 0

/-- The page of instance `i`. -/
def State.pageView (s : State) (i o : Nat) : Option View :=
  let x := s.inst i
  if o = 0x0 then View.roT (0x01001000#32 ||| at32 i 0)
  else if o = 0x4 then View.roT (s.instStat i)
  else if 0x1000 ≤ o ∧ o < 0x1400 then s.qpView i ((o - 0x1000) / 64) (o % 64 / 4)
  else if 0x2000 ≤ o ∧ o < 0x2100 then View.rwM (w32 (leNat (rdBytes x.mbx.inb (o - 0x2000) 4))) ones
  else if 0x2100 ≤ o ∧ o < 0x2200 then View.roT (w32 (leNat (rdBytes x.mbx.out (o - 0x2100) 4)))
  else if o = 0x2200 then some ⟨0#32, ones, 0#32, 0#32, 0x80000000#32⟩
  else if o = 0x2204 then some ⟨x.mbx.stat, ones, 0#32, 0#32, 0x60000000#32⟩
  else if 0x3000 ≤ o ∧ o < 0x3110 ∧ i ≠ 0 then s.msixView i ((o - 0x3000) / 16) (o % 16 / 4)
  else if o = 0x3800 ∧ i ≠ 0 then View.roT (s.pbaWord i 0)
  else if 0x10000 ≤ o ∧ o < 0x20000 ∧ o % 0x1000 = 0 then
    View.rwM ((s.queue i ((o - 0x10000) / 0x1000)).sqTail.setWidth 32) 0xFFFF#32
  else if 0x10000 ≤ o ∧ o < 0x20000 ∧ o % 0x1000 = 4 then
    View.rwM ((s.queue i ((o - 0x10000) / 0x1000)).cqHead.setWidth 32) 0xFFFF#32
  else none

/-! ## SCH (R240, R241) -/

/-- The SCH region. -/
def State.schView (s : State) (o : Nat) : Option View :=
  let r := s.reg (0x100000 + o)
  if o = 0x0 then View.ro 0x00400001#32
  else if o = 0x4 then some ⟨r, ones, 1#32, 0xFF01#32, 0#32⟩
  else if o = 0x8 then View.ro (w32 s.g)
  else if o = 0xC then View.ro s.sch.gHigh
  else if o = 0x10 then View.rwM r 0x3F3F#32
  else if o = 0x14 then View.ro (flagAt s.sch.holdNormal 1 ||| flagAt s.sch.holdBulk 0)
  else if o = 0x20 ∨ o = 0x24 ∨ o = 0x28 ∨ o = 0x44 then View.rwM r ones
  else if o = 0x2C then some ⟨r, ones, 0#32, 0x1FF7F#32, 0xC0000000#32⟩
  else if o = 0x30 then View.ro (flagAt s.sch.fetched.isSome 31 ||| at32 s.sch.loadIndex 8 ||| at32 s.sch.loadResult 0)
  else if o = 0x40 then some ⟨r, ones, 0#32, 0xF007F#32, 0x80000000#32⟩
  else if o = 0x48 then View.ro (flagAt s.sch.placing.isSome 31 ||| at32 s.sch.placeResult 0)
  else if o = 0x80 then View.ro s.sch.cntSlip
  else if o = 0x84 then View.ro s.sch.cntReplay
  else if o = 0x88 then View.ro s.sch.cntPairfail
  else if o = 0x8C then View.ro s.sch.cntLate
  else if 0x100 ≤ o ∧ o < 0x500 then View.rwM r 0x13FF#32
  else if 0x800 ≤ o ∧ o < 0x900 then
    let k := s.cl ((o - 0x800) / 16)
    match o % 16 / 4 with
    | 0 => View.ro (w32 k.gRef)
    | 1 => View.ro (w32 (k.gRef / 2 ^ 32))
    | 2 => View.ro (w32 k.bRef)
    | _ => none
  else if 0x1000 ≤ o ∧ o < 0x1800 then View.ro (s.schSlot ((o - 0x1000) / 4))
  else none

/-! ## Clusters (R101 to R103) -/

/-- DE_CL_STAT. -/
def State.clStat (s : State) (c : Nat) : W32 :=
  let k := s.cl c
  at32 k.selftest 24 ||| at32 (s.running c) 10 ||| at32 k.capStep 8 ||| at32 k.vpwr.code 2 ||| flagAt k.fatal 1
    ||| flagAt k.inService 0

/-- The registers of cluster `c`. -/
def State.clView (s : State) (c o : Nat) : Option View :=
  let k := s.cl c
  if o = 0x0 then View.ro (0x00022000#32 ||| at32 c 0)
  else if o = 0x4 then some ⟨flagAt k.oos 0, ones, 0#32, 1#32, 2#32⟩
  else if o = 0x8 then View.ro (s.clStat c)
  else if o = 0xC then View.ro (w32 (k.localOf s.g))
  else if 0x100 ≤ o ∧ o < 0x118 then s.faultAt c o
  else if o = 0x200 then View.rwM (s.reg (vpwrReg c)) 0x800FFFFF#32
  else if o = 0x204 then View.ro (at32 k.wakes.toNat 16 ||| at32 k.held.toNat 0)
  else if 0x1000 ≤ o ∧ o < 0x1080 then
    let i := 32 * c + (o - 0x1000) / 4
    View.ro (at32 (s.engState i) 30 ||| flagAt (s.eng i).mrgExh 29 ||| at32 (s.eng i).carry 0)
  else if o = 0x8000 then some ⟨k.dbgCtrl, ones, 0#32, 0x881F#32, 0x7000#32⟩
  else if o = 0x8004 then View.rwM (w32 k.dbgAddr) ones
  else if o = 0x8008 then View.rwM 0#32 ones
  else none

/-! ## MAU (R336, R337) -/

/-- The registers of unit `u`. -/
def State.mauView (s : State) (u o : Nat) : Option View :=
  let m := s.mau u
  let r := s.reg (0x400000 + 0x1000 * u + o)
  if o = 0x0 then View.ro (at32 m.patchVer 16 ||| 0x100#32 ||| at32 u 0)
  else if o = 0x4 then some ⟨flagAt m.direct 1 ||| flagAt m.oos 0, ones, 0#32, 3#32, 4#32⟩
  else if o = 0x8 then View.rwM r 0x3F03#32
  else if o = 0xC then
    some ⟨at32 m.stateCode 29 ||| flagAt m.done 28 ||| at32 m.inst 16 ||| at32 m.result 8 ||| at32 m.opc 0, ones, 0xEFFF00FF#32,
      0#32, 0x10000000#32⟩
  else if o = 0x10 ∨ o = 0x14 then some ⟨0#32, ones, 0#32, 0#32, ones⟩
  else if o = 0x20 then View.rwM (w32 m.opmAddr) 0x3FFF#32
  else if o = 0x24 then View.rwM 0#32 ones
  else if o = 0x30 then View.rwS (w32 m.patchAddr) 0x3FF#32
  else if o = 0x34 then View.rwS m.patchData ones
  else if o = 0x38 then View.rwS r 0xC000FFFF#32
  else if 0x40 ≤ o ∧ o < 0x80 then View.rwS r 0x8FFF03FF#32
  else if 0x100 ≤ o ∧ o < 0x110 then s.faultView (blkMau + u) ((o - 0x100) / 4)
  else if o = 0x110 then s.faultView (blkMau + u) 5
  else if o = 0x200 then View.ro m.cntCalls
  else if o = 0x204 then View.ro m.cntReject
  else if o = 0x208 then View.ro m.cntCheck
  else none

/-! ## KT (R448, R449) -/

/-- FREE slots (R449). -/
def State.freeSlots (s : State) : Nat :=
  0xFF00 - (s.keys.slots.filter fun e => decide (256 ≤ e.1) && e.2.st != .free).length

/-- The KT region. -/
def State.ktView (s : State) (o : Nat) : Option View :=
  let r := s.reg (0x500000 + o)
  if o = 0x0 then View.ro 0x01000010#32
  else if o = 0x4 then View.rwM r 1#32
  else if o = 0x8 then View.ro (flagAt s.keys.sweepAt.isSome 31 ||| flagAt s.keys.bbramOk 30 ||| at32 s.freeSlots 0)
  else if o = 0xC then View.ro (w32 s.otp.era)
  else if o = 0x10 then View.ro (w32 s.bbram.importCtr)
  else if o = 0x20 then View.rwM r 0xFFF00000#32
  else if o = 0x24 then View.rwM r ones
  else if o = 0x28 then View.rwM r 0x1FFF#32
  else if o = 0x2C then View.ro (w32 (s.vaultSize - s.vaultUsedCount))
  else if o = 0x30 then View.ro (at32 (s.keys.skips % 65536) 16 ||| at32 (s.keys.passes % 65536) 0)
  else if o = 0x34 then View.ro (w32 (1024 - (s.bbram.counters.filter fun e => e.2.reserved || e.2.bound).length))
  else if 0x100 ≤ o ∧ o < 0x118 then s.faultAt blkKt o
  else if o = 0x200 then View.ro s.keys.cntDestroy
  else if o = 0x204 then View.ro s.keys.cntReclaim
  else if o = 0x208 then View.ro s.keys.cntExport
  else if o = 0x20C then View.ro s.keys.cntImport
  else if 0x1000 ≤ o ∧ o < 0x2000 then
    let i := (o - 0x1000) / 16
    match o % 16 / 4 with
    | 0 => View.rwM r 0x1FFFF#32
    | 1 => View.ro (w32 (s.usedCount i))
    | 2 => View.ro (w32 (s.epoch i))
    | _ => none
  else if o = 0x4000 then View.rwS r ones
  else if o = 0x4004 then View.rwS r 1#32
  else if 0x4010 ≤ o ∧ o < 0x4030 then
    some ⟨w32 (leAt s.keys.supData (o - 0x4010) 4), 0#32, ones, 0#32, 0#32⟩
  else none

/-! ## ENT (R474, R475) -/

/-- ENT_SW_STAT and ENT_SUP_STAT (R469, R475). -/
def State.swStat (s : State) (sup : Bool) : W32 :=
  let b := s.ent.buf sup
  flagAt (!b.isEmpty) 31 ||| flagAt (s.ent.mode == .halted) 30 ||| at32 (b.length % 16) 0

/-- The ENT region; a data register's word is taken by the read itself. -/
def State.entView (s : State) (o : Nat) : Option View :=
  if o = 0x0 then View.ro 0x01041000#32
  else if o = 0x4 then some ⟨0#32, ones, 0#32, 0#32, 0xF#32⟩
  else if o = 0x8 then View.ro s.entStat
  else if 0x10 ≤ o ∧ o < 0x20 then
    let x := s.src ((o - 0x10) / 4)
    View.ro (at32 x.st.code 29 ||| at32 x.fails 24 ||| at32 x.cause 20 ||| at32 x.aptMax 0)
  else if o = 0x30 then some ⟨s.swStat false, ones, 0#32, 0#32, 0#32⟩
  else if o = 0x34 then some ⟨0#32, ones, 0#32, 0#32, 0#32⟩
  else if o = 0x38 then some ⟨s.swStat true, 0#32, ones, 0#32, 0#32⟩
  else if o = 0x3C then some ⟨0#32, 0#32, ones, 0#32, 0#32⟩
  else if 0x40 ≤ o ∧ o < 0x80 then
    let d := s.drbg ((o - 0x40) / 4)
    View.ro (at32 d.st.code 30 ||| at32 (min d.reqs 4096) 0)
  else if 0x100 ≤ o ∧ o < 0x118 then s.faultAt blkEnt o
  else if o = 0x200 then View.ro s.ent.reseeds
  else if o = 0x204 then View.ro s.ent.requests
  else if o = 0x208 then View.ro s.ent.srcFails
  else if o = 0x20C then View.ro s.ent.denied
  else none

/-! ## DGE and DMA (R492, R493, R505, R506) -/

/-- The page of a context: the letter S, and M in the pages of instance 0. -/
def State.cxView (s : State) (k o : Nat) : Option View :=
  let c := s.ctx k
  let m : W32 := if k < 8 then ones else 0#32
  let r := s.reg (dgePage k + o)
  let ro (v : W32) : Option View := some ⟨v, m, ones, 0#32, 0#32⟩
  let rw (mask : W32) : Option View := some ⟨r, m, ones, mask, 0#32⟩
  if o = 0x0 then some ⟨0#32, m, ones, 0#32, 0xF000000F#32⟩
  else if o = 0x4 then ro (at32 c.st.code 30 ||| flagAt c.trunc 29 ||| at32 c.result 0)
  else if o = 0x08 ∨ o = 0x0C ∨ o = 0x10 ∨ o = 0x14 ∨ o = 0x18 then rw ones
  else if o = 0x20 then ro (w32 c.rcvd)
  else if o = 0x24 then ro (w32 (c.rcvd / 2 ^ 32))
  else if o = 0x28 ∨ o = 0x2C then rw ones
  else if o = 0x30 then rw 0x9FFF000F#32
  else if o = 0x34 ∨ o = 0x38 then rw ones
  else if o = 0x3C then ro (at32 c.matchN.toNat 8 ||| at32 c.isMatch.toNat 0)
  else if 0x40 ≤ o ∧ o < 0x80 then rw ones
  else if 0x80 ≤ o ∧ o < 0xC0 then ro (w32 (leAt c.out (o - 0x80) 4))
  else none

/-- The DGE region. -/
def State.dgeView (s : State) (o : Nat) : Option View :=
  let r := s.reg (0x700000 + o)
  if o = 0x0 then View.ro 0x01100800#32
  else if o = 0x4 then View.rwM r 0x8000FFFF#32
  else if o = 0x8 then View.ro (at32 s.dge.units.length 16 ||| at32 s.dge.wait.length 0)
  else if o = 0x10 then View.rwM r 0xFFF00000#32
  else if o = 0x14 then View.rwM r ones
  else if 0x100 ≤ o ∧ o < 0x118 then s.faultAt blkDge o
  else if o = 0x200 then View.ro s.dge.cntBlocks
  else if o = 0x204 then View.ro s.dge.cntSwitch
  else if o = 0x208 then View.ro s.dge.cntMismatch
  else if 0x80000 ≤ o ∧ o < 0x100000 then s.cxView ((o - 0x80000) / 0x100) (o % 0x100)
  else none

/-- A 16-bit map over the channels. -/
def State.chMap (s : State) (p : DmaCh → Bool) : Nat :=
  ((List.range 16).map fun n => if p (s.ch n) then 2 ^ n else 0).foldl (· + ·) 0

/-- The page of channel `n`. -/
def State.chView (s : State) (n o : Nat) : Option View :=
  let c := s.ch n
  let r := s.reg (dmaPage n + o)
  let rw (v mask w1 : W32) : Option View := some ⟨v, ones, ones, mask, w1⟩
  if o = 0x0 then rw (r ||| flagAt c.pause 30) (dmaCfgMask ||| 0x40000000#32) 0xA0000000#32
  else if o = 0x04 ∨ o = 0x08 ∨ o = 0x0C ∨ o = 0x10 ∨ o = 0x14 then rw r ones 0#32
  else if o = 0x18 then View.ro (w32 c.prog)
  else if o = 0x1C then View.ro (at32 c.st.code 29 ||| at32 c.cause 24 ||| flagAt c.dir 23)
  else if o = 0x20 then View.ro (w32 c.err)
  else if o = 0x24 then View.ro (w32 (c.err / 2 ^ 32))
  else none

/-- The DMA region. -/
def State.dmaView (s : State) (o : Nat) : Option View :=
  if o = 0x0 then View.ro 0x01000010#32
  else if o = 0x4 then View.ro (at32 (s.chMap fun c => c.st == .halted) 16 ||| at32 (s.chMap DmaCh.active) 0)
  else if 0x100 ≤ o ∧ o < 0x118 then s.faultAt blkDma o
  else if o = 0x200 then View.ro s.dma.cntDone
  else if o = 0x204 then View.ro s.dma.cntHalt
  else if 0x1000 ≤ o ∧ o < 0x1400 then s.chView ((o - 0x1000) / 0x40) (o % 0x40)
  else none

/-! ## LCC and TMP (R528, R529, R576, R577) -/

/-- A value that the last OTP load gave (R529). -/
def State.otpWord (s : State) (x : Nat) : Option View := View.ro (w32 (if s.lcc.decoded then x else 0))

/-- The LCC region. -/
def State.lccView (s : State) (o : Nat) : Option View :=
  if o = 0x0 then View.ro 0x01000000#32
  else if o = 0x4 then s.otpWord s.lccStat.toNat
  else if o = 0x8 then View.ro s.lccXstat
  else if o = 0xC then View.ro (w32 s.lcc.vhold)
  else if o = 0x10 then s.otpWord s.otp.serial.toNat
  else if o = 0x14 then s.otpWord (s.otp.serial.toNat / 2 ^ 32)
  else if o = 0x18 then s.otpWord s.otp.power
  else if o = 0x20 then s.otpWord s.otp.lcA.toNat
  else if o = 0x24 then s.otpWord (s.otp.lcA.toNat / 2 ^ 32)
  else if o = 0x28 then s.otpWord s.otp.lcB.toNat
  else if o = 0x2C then s.otpWord (s.otp.lcB.toNat / 2 ^ 32)
  else if o = 0x30 then s.otpWord s.otp.lcC.toNat
  else if o = 0x34 then s.otpWord (s.otp.lcC.toNat / 2 ^ 32)
  else if 0x100 ≤ o ∧ o < 0x118 then s.faultAt blkLcc o
  else if o = 0x200 then View.ro s.lcc.cntTrans
  else if o = 0x204 then View.ro s.lcc.cntDeny
  else none

/-- The TMP region. -/
def State.tmpView (s : State) (o : Nat) : Option View :=
  let t := s.tmp
  if o = 0x0 then View.ro 0x01000000#32
  else if o = 0x4 then some ⟨t.ctrl, ones, 0#32, 0xC3FF0000#32, 0x3F#32⟩
  else if o = 0x8 then View.ro s.tmpStat
  else if o = 0x10 then View.rwM t.lvlRail 0xFFFFFF#32
  else if o = 0x14 then View.rwM t.lvlEnv 0x3FFFF#32
  else if o = 0x18 then some ⟨t.lvlIn, ones, 0x38000#32, 0x7FFF#32, 0#32⟩
  else if o = 0x1C then View.rwM t.inCfg 0xFF#32
  else if o = 0x20 then View.ro (at32 t.stuck.toNat 16 ||| at32 t.filt.toNat 8 ||| at32 t.raw.toNat 0)
  else if o = 0x24 then View.ro s.tmpTemp
  else if o = 0x28 then View.ro s.tmpEvidence
  else if o = 0x2C then some ⟨t.battRec, ones, ones, 0#32, 0x8000007F#32⟩
  else if 0x100 ≤ o ∧ o < 0x118 then s.faultAt blkTmp o
  else if o = 0x200 then View.ro t.cntEpisode
  else if o = 0x204 then View.ro t.cntAlarm
  else none

/-! ## EVR, SDH, MGT, MEM, SUP (R548, R549, R608 to R610, R634, R635, R661, R662) -/

/-- The EVR region. -/
def State.evrView (s : State) (o : Nat) : Option View :=
  let e := s.evr
  if o = 0x0 then View.ro 0x01000230#32
  else if o = 0x4 then some ⟨s.reg 0xB00004, ones, 0x80000000#32, 0xFF#32, 0xC0000000#32⟩
  else if o = 0x8 then View.ro s.evrStat
  else if o = 0xC then View.ro (w32 e.opsec)
  else if o = 0x10 then View.ro (w32 (e.pcyc % 0x1000000))
  else if o = 0x14 then View.ro (w32 e.seq)
  else if o = 0x18 then View.ro (w32 e.head)
  else if o = 0x1C then View.ro (w32 e.tail)
  else if 0x800 ≤ o ∧ o < 0x848 then View.ro (s.pend ((o - 0x800) / 4))
  else if 0x1000 ≤ o ∧ o < 0x18C0 then View.rwM (s.route ((o - 0x1000) / 4)) 0x3F1F#32
  else if 0x3000 ≤ o ∧ o < 0x3600 then View.ro (w32 (leNat (rdBytes e.lg (o - 0x3000) 4)))
  else if 0x40000 ≤ o ∧ o < 0x80000 then View.ro (w32 (leNat (rdBytes e.ring (o - 0x40000) 4)))
  else none

/-- The SDH region. -/
def State.sdhView (s : State) (o : Nat) : Option View :=
  if o = 0x0 then View.ro 0x01000000#32
  else if o = 0x4 then View.ro s.sdhStat
  else if o = 0x8 then View.rwM (s.reg 0xC00008) 0xF#32
  else if o = 0xC then View.ro (at32 (s.sd.tap % 128) 16 ||| at32 (s.sd.width % 128) 8 ||| at32 (s.sd.tunes % 256) 0)
  else if 0x100 ≤ o ∧ o < 0x118 then s.faultAt blkSdh o
  else if o = 0x200 then View.ro s.sd.cntWrite
  else if o = 0x204 then View.ro s.sd.cntUncertain
  else none

/-- The MGT region. -/
def State.mgtView (s : State) (o : Nat) : Option View :=
  if o = 0x0 then View.ro 0x0100005A#32
  else if o = 0x4 then View.rwM (s.reg 0xD00004) 7#32
  else if o = 0x8 then View.ro s.mgtStat
  else none

/-- The MEM region. -/
def State.memView (s : State) (o : Nat) : Option View :=
  let v := s.gov
  if o = 0x0 then View.ro 0x01000000#32
  else if o = 0x4 then
    View.ro (at32 v.gib1 24 ||| at32 v.gib0 16 ||| at32 v.speed 8 ||| flagAt v.ok1 1 ||| flagAt v.ok0 0)
  else if o = 0x10 then View.rwM (s.reg 0xE00010) 0xFF#32
  else if o = 0x14 then View.ro (at32 s.powerLimit 24 ||| at32 s.limitSrc 22 ||| at32 s.boot.strap 20 ||| at32 v.demand 0)
  else if 0x100 ≤ o ∧ o < 0x118 then s.faultAt blkMem o
  else none

/-- The SUP region; its fault registers lie at offsets 0x100 to 0x114 (R608, R662). -/
def State.supView (s : State) (o : Nat) : Option View :=
  if o = 0x0 then View.ro 0x01010000#32
  else if o = 0x4 then View.ro s.supBootStat
  else if o = 0x8 then View.ro s.supResetCause
  else if o = 0xC then View.ro s.boot.timeUs
  else if o = 0x10 then View.ro s.boot.fwVer
  else if o = 0x14 then View.ro s.supFwSlots
  else if o = 0x18 then View.ro (if s.lcc.decoded then s.supOtpMin else 0#32)
  else if o = 0x1C then some ⟨0#32, ones, 0#32, 0#32, 0x8000FFFF#32⟩
  else if 0x100 ≤ o ∧ o < 0x118 then s.faultAt blkSup o
  else none

/-! ## The whole BAR (R43, R44) -/

/-- A register of PF BAR0; none for an offset that is reserved or not listed. -/
def State.pfView (s : State) (a : Nat) : Option View :=
  let o := a % 0x100000
  match a / 0x100000 with
  | 0 => if 0x40000 ≤ o ∧ o < 0x80000 then s.pageView 0 (o - 0x40000) else s.hiuView o
  | 1 => s.schView o
  | 2 => s.clView (o / 0x10000) (o % 0x10000)
  | 4 => if o < 0x20000 then s.mauView (o / 0x1000) (o % 0x1000) else none
  | 5 => s.ktView o
  | 6 => s.entView o
  | 7 => s.dgeView o
  | 8 => s.dmaView o
  | 9 => s.lccView o
  | 10 => s.tmpView o
  | 11 => s.evrView o
  | 12 => s.sdhView o
  | 13 => s.mgtView o
  | 14 => s.memView o
  | 15 => s.supView o
  | _ => none

end Sys2Proof.Machine
end

