-- ==== Sys2Proof/Machine/RegWrite.lean ====
section
/-!
DEFINITION. What a write does to each register, once the letters of its fields allow it; a register with a command of its
own acts as that command (R17, R18, R43, R663 and the register sections of the chapters).
-/
namespace Sys2Proof.Machine

/-- The state that an outcome goes on from. -/
def State.after (s : State) (o : Host.Outcome State Fault Refusal) : State :=
  match o with
  | .next t => t
  | _ => s

/-- The index of a table entry as an operand. -/
def idx (n x : Nat) : BitVec n := BitVec.ofNat n x

/-- Fault registers: FSTAT clears, FEN stores, FFORCE raises (R585 to R588; of SUP, R608). -/
def State.faultWrite (s : State) (blk k : Nat) (w : W32) : State :=
  match k with
  | 0 => s.fstatClear blk w
  | 1 => s.setFault blk { s.fault blk with fen := w &&& lowMask (sourceCount blk) }
  | 2 => s.force blk w
  | _ => s

/-! ## HIU -/


/-- A word of an MSI-X entry; clearing the mask bit is the unmasking of R378. -/
def State.msixWrite (s : State) (i v k : Nat) (w : W32) : State :=
  let e := s.msixOf i v
  match k with
  | 0 => s.setMsix i v { e with addrLo := w &&& 0xFFFFFFFC#32 }
  | 1 => s.setMsix i v { e with addrHi := w }
  | 2 => s.setMsix i v { e with data := w }
  | _ => if bit32 w 0 then s.setMsix i v { e with masked := true } else s.after (execMsixUnmask (idx 8 i) (idx 6 v) s)

/-- A write in the HIU region, the page of instance 0 apart. -/
def State.hiuWrite (s : State) (o : Nat) (w : W32) : State :=
  if 0x100 ≤ o ∧ o < 0x118 then s.faultWrite blkHiu ((o - 0x100) / 4) w
  else if 0x1000 ≤ o ∧ o < 0x2000 then
    let i := (o - 0x1000) / 16
    match o % 16 / 4 with
    | 0 => s.judgeCtrl i (.word w)
    | 1 => if bit32 w 28 then s.setInst i { s.inst i with resetRefused := false } else s
    | 2 => s.after (execActiveMaxWrite (idx 8 i) w s)
    | _ => s.setReg o w
  else if 0x10000 ≤ o ∧ o < 0x18000 then
    s.setReg o (w &&& (match o % 16 / 4 with | 0 => 0xFFFFF000#32 | 3 => 3#32 | _ => ones))
  else if 0x80000 ≤ o ∧ o < 0x80400 then s.msixWrite 0 ((o - 0x80000) / 16) (o % 16 / 4) w
  else s

/-! ## The page of an instance -/

/-- A ring base is written only while the queue is DISABLED (R375, R663). -/
def State.qpBaseWrite (s : State) (i q a : Nat) (v : W32) : State :=
  if (s.queue i q).st == .disabled then s.setReg a v
  else if v != s.reg a then s.raiseHiu 11 i q 0
  else s

/-- A register of a queue (R350, R374, R375). -/
def State.qpWrite (s : State) (i q k : Nat) (w : W32) : State :=
  let a := qpReg i q
  match k with
  | 0 => if bit32 w 31 then s.after (execQpEnSet (idx 8 i) (idx 4 q) w s) else s.after (execQpEnClear (idx 8 i) (idx 4 q) w s)
  | 2 => s.qpBaseWrite i q (a + 0x08) (w &&& 0xFFFFF000#32)
  | 3 => s.qpBaseWrite i q (a + 0x0C) w
  | 4 => s.qpBaseWrite i q (a + 0x10) (w &&& 0xFFFFF000#32)
  | 5 => s.qpBaseWrite i q (a + 0x14) w
  | _ => s

/-- A word of MBX_IN; while a message or an answer is there the write is refused (R380). -/
def State.mbxInWrite (s : State) (i o : Nat) (w : W32) : State :=
  let x := s.inst i
  if x.mbx.busy || x.mbx.outValid then
    (s.setInst i { x with mbx := { x.mbx with overrun := true } }).raiseHiu 23 i 0 0
  else s.setInst i { x with mbx := { x.mbx with inb := wrBytes x.mbx.inb o (natLe 4 w.toNat) } }

/-- MBX_STAT: OUT_VALID and OVERRUN are cleared by 1 (R380, R400). -/
def State.mbxStatWrite (s : State) (i : Nat) (w : W32) : State :=
  let x := s.inst i
  s.setInst i { x with mbx := { x.mbx with
    outValid := x.mbx.outValid && !bit32 w 30
    overrun := x.mbx.overrun && !bit32 w 29 } }

/-- A write in the page of instance `i` (R399, R400). -/
def State.pageRegWrite (s : State) (i o : Nat) (w : W32) : State :=
  if 0x1000 ≤ o ∧ o < 0x1400 then s.qpWrite i ((o - 0x1000) / 64) (o % 64 / 4) w
  else if 0x2000 ≤ o ∧ o < 0x2100 then s.mbxInWrite i (o - 0x2000) w
  else if o = 0x2200 then (if bit32 w 31 then s.after (execMbxDoorbellGo (idx 8 i) s) else s)
  else if o = 0x2204 then s.mbxStatWrite i w
  else if 0x3000 ≤ o ∧ o < 0x3110 ∧ i ≠ 0 then s.msixWrite i ((o - 0x3000) / 16) (o % 16 / 4) w
  else if 0x10000 ≤ o ∧ o < 0x20000 ∧ o % 0x1000 = 0 then
    s.after (execSqDoorbell (idx 8 i) (idx 4 ((o - 0x10000) / 0x1000)) (w.setWidth 16) s)
  else if 0x10000 ≤ o ∧ o < 0x20000 ∧ o % 0x1000 = 4 then
    s.after (execCqDoorbell (idx 8 i) (idx 4 ((o - 0x10000) / 0x1000)) (w.setWidth 16) s)
  else s

/-! ## SCH -/

/-- A write in the SCH region; `image` is what a load's fetch finds in host memory (R200, R241, R242). -/
def State.schWrite (s : State) (o : Nat) (w : W32) (image : HostRead) : State :=
  let a := 0x100000 + o
  if o = 0x4 then s.setReg a (at32 (max 16 (fld w 8 8)) 8 ||| at32 (fld w 0 1) 0)
  else if o = 0x10 then s.setReg a (w &&& 0x3F3F#32)
  else if o = 0x20 ∨ o = 0x24 ∨ o = 0x28 ∨ o = 0x44 then s.setReg a w
  else if o = 0x2C then
    if bit32 w 31 then s.after (execSchLoadGo w image s)
    else if bit32 w 30 then s.after (execSchLoadDrop w s)
    else if s.sch.fetched.isSome then s.lockedSch (w &&& 0x1FF7F#32 != s.reg a) else s.storeLoadCmd w
  else if o = 0x40 then
    if bit32 w 31 then s.after (execSchPlaceGo w s)
    else if s.sch.placing.isSome then s.lockedSch (w &&& 0xF007F#32 != s.reg a) else s.setReg a (w &&& 0xF007F#32)
  else if 0x100 ≤ o ∧ o < 0x500 then s.setReg a (w &&& 0x13FF#32)
  else s

/-! ## Clusters and MAUs -/

/-- A write in a cluster's window (R83, R93, R99, R100, R104). A write of OOS and RST together takes OOS first, and RST is
judged after it (log entry 105). -/
def State.clWrite (s : State) (c o : Nat) (w : W32) : State :=
  if o = 0x4 then
    let s := s.setOos c (bit32 w 0)
    if bit32 w 1 then s.clusterRst c else s
  else if 0x100 ≤ o ∧ o < 0x118 then s.faultWrite c ((o - 0x100) / 4) w
  else if o = 0x200 then
    let was := s.forceOn c
    let s := s.setReg (vpwrReg c) (setFld (s.reg (vpwrReg c)) 0 20 (fld w 0 20))
    if bit32 w 31 = was then s else s.after (execForceOn (idx 4 c) (bit32 w 31) s)
  else if o = 0x8000 then s.dbgCtrlWrite c w
  else if o = 0x8004 then s.dbgAddrWrite c w
  else if o = 0x8008 then s.dbgDataWrite c w
  else s

/-- A patch or match register that is locked keeps its value (R334, R527, R663). -/
def State.mauLockWrite (s : State) (u : Nat) (held w : W32) (f : State → State) : State :=
  if (s.mau u).locked || s.lc == .scrap then (if w != held then s.mauAccess u else s) else f s

/-- MAU_CTRL: OOS, DIRECT and ABORT (R320, R323, R324, R337). -/
def State.mauCtrlWrite (s : State) (u : Nat) (w : W32) : State :=
  let s := s.after (execMauOos (idx 5 u) (bit32 w 0) s)
  let s := if bit32 w 1 then s.after (execMauDirectSet (idx 5 u) s) else s.after (execMauDirectClear (idx 5 u) s)
  if bit32 w 2 then s.after (execMauAbort (idx 5 u) s) else s

/-- MAU_PATCH_CTRL: LOCK is the locking of R334; BCAST stands in unit 0 only (R337). -/
def State.patchCtrlWrite (s : State) (u : Nat) (w : W32) : State :=
  let a := 0x400038 + 0x1000 * u
  let v := w &&& (if u = 0 then 0xC000FFFF#32 else 0x8000FFFF#32)
  s.mauLockWrite u (s.reg a) v fun s =>
    if bit32 w 31 then s.after (execMauPatchLock (idx 5 u) w s) else s.setReg a v

/-- A write in a unit's window (R337). -/
def State.mauWrite (s : State) (u o : Nat) (w : W32) : State :=
  let a := 0x400000 + 0x1000 * u + o
  if o = 0x4 then s.mauCtrlWrite u w
  else if o = 0x8 then s.setReg a (w &&& 0x3F03#32)
  else if o = 0xC then (if bit32 w 28 then s.setMau u { s.mau u with done := false } else s)
  else if o = 0x10 then s.setMau u { s.mau u with rcmdLo := w }
  else if o = 0x14 then s.after (execMauRcmdHiWrite (idx 5 u) w s)
  else if o = 0x20 then
    if (s.mau u).direct then s.setMau u { s.mau u with opmAddr := fld w 0 14 }
    else if fld w 0 14 != (s.mau u).opmAddr then s.mauAccess u else s
  else if o = 0x24 then s.after (execMauOpmDataAccess (idx 5 u) (some w) s)
  else if o = 0x30 then
    s.mauLockWrite u (w32 (s.mau u).patchAddr) (w &&& 0x3FF#32) fun s => s.setMau u { s.mau u with patchAddr := fld w 0 10 }
  else if o = 0x34 then s.after (execMauPatchDataWrite (idx 5 u) w s)
  else if o = 0x38 then s.patchCtrlWrite u w
  else if 0x40 ≤ o ∧ o < 0x80 then
    s.mauLockWrite u (s.reg a) (w &&& 0x8FFF03FF#32) fun s => s.setReg a (w &&& 0x8FFF03FF#32)
  else if 0x100 ≤ o ∧ o < 0x110 then s.faultWrite (blkMau + u) ((o - 0x100) / 4) w
  else s

/-! ## KT, ENT, DGE, DMA -/

/-- The vault's base and size are written only while VAULT_EN is 0 (R427, R663). -/
def State.vaultRegWrite (s : State) (a : Nat) (v : W32) : State :=
  if !s.vaultEn then s.setReg a v else if v != s.reg a then s.raiseKt 11 0 0 else s

/-- A write in the KT region. -/
def State.ktWrite (s : State) (o : Nat) (w : W32) : State :=
  let a := 0x500000 + o
  if o = 0x4 then s.after (execVaultEnWrite (bit32 w 0) s)
  else if o = 0x20 then s.vaultRegWrite a (w &&& 0xFFF00000#32)
  else if o = 0x24 then s.vaultRegWrite a w
  else if o = 0x28 then s.vaultRegWrite a (w &&& 0x1FFF#32)
  else if 0x100 ≤ o ∧ o < 0x118 then s.faultWrite blkKt ((o - 0x100) / 4) w
  else if 0x1000 ≤ o ∧ o < 0x2000 ∧ o % 16 = 0 then s.setReg a (w &&& 0x1FFFF#32)
  else if o = 0x4000 then s.setReg a w
  else if o = 0x4004 then s.after (execSupShareRead (bit32 w 0) s)
  else s

/-- A write in the ENT region. -/
def State.entWrite (s : State) (o : Nat) (w : W32) : State :=
  if o = 0x4 then s.after (execSourceRestart (w.setWidth 4) s)
  else if 0x100 ≤ o ∧ o < 0x118 then s.faultWrite blkEnt ((o - 0x100) / 4) w
  else s

/-- A write of DGE_CX_CMD: OP selects the command; a reserved OP does nothing (R16, R478, R493). -/
def State.cxCmd (s : State) (k : Nat) (w : W32) : State :=
  match fld w 28 4 with
  | 1 => s.cxOpen k (fld w 0 4)
  | 2 => s.cxStart k false
  | 3 => s.cxStart k true
  | 4 => s.cxClose k
  | _ => s

/-- A write in the DGE region. -/
def State.dgeWrite (s : State) (o : Nat) (w : W32) : State :=
  if o = 0x4 then s.after (execSaveEnWrite 0#2 w s)
  else if o = 0x10 then s.after (execSaveEnWrite 1#2 w s)
  else if o = 0x14 then s.after (execSaveEnWrite 2#2 w s)
  else if 0x100 ≤ o ∧ o < 0x118 then s.faultWrite blkDge ((o - 0x100) / 4) w
  else if 0x80000 ≤ o ∧ o < 0x100000 then
    let k := (o - 0x80000) / 0x100
    let p := o % 0x100
    if p = 0 then s.cxCmd k w
    else s.setReg (0x700000 + o) (if p = 0x30 then w &&& 0x9FFF000F#32 else w)
  else s

/-- SRC, DST and LEN of an active channel keep their values (R503, R663). -/
def State.chRegWrite (s : State) (n o : Nat) (w : W32) : State :=
  if !(s.ch n).active then s.setReg (dmaPage n + o) w
  else if w != s.reg (dmaPage n + o) then s.raiseDma 12 n 0
  else s

/-- A write in the DMA region. -/
def State.dmaWrite (s : State) (o : Nat) (w : W32) : State :=
  if 0x100 ≤ o ∧ o < 0x118 then s.faultWrite blkDma ((o - 0x100) / 4) w
  else if 0x1000 ≤ o ∧ o < 0x1400 then
    let n := (o - 0x1000) / 0x40
    let p := o % 0x40
    if p = 0 then s.chCtrlWrite n w else if p ≤ 0x14 then s.chRegWrite n p w else s
  else s

/-! ## LCC, TMP, EVR, SDH, MGT, MEM, SUP -/

/-- A write in the LCC region: no field but those of the fault registers can be written (R529). -/
def State.lccWrite (s : State) (o : Nat) (w : W32) : State :=
  if 0x100 ≤ o ∧ o < 0x118 then s.faultWrite blkLcc ((o - 0x100) / 4) w else s

/-- A write in the TMP region (R565, R566, R577). -/
def State.tmpWrite (s : State) (o : Nat) (w : W32) : State :=
  if o = 0x4 then s.tmpCtrlWrite w
  else if o = 0x10 then s.lvlWrite .rail w
  else if o = 0x14 then s.lvlWrite .env w
  else if o = 0x18 then s.lvlWrite .inputs w
  else if o = 0x1C then s.inCfgWrite w
  else if o = 0x2C then { s with tmp := { s.tmp with battRec := s.tmp.battRec &&& ~~~w } }
  else if 0x100 ≤ o ∧ o < 0x118 then s.faultWrite blkTmp ((o - 0x100) / 4) w
  else s

/-- A route as it is stored: a vector below 17 stores 17 (R610). -/
def routeWord (w : W32) : W32 := setFld (w &&& 0x3F1F#32) 8 6 (max 17 (fld w 8 6))

/-- A write in the EVR region (R592, R603, R606, R610). -/
def State.evrWrite (s : State) (o : Nat) (w : W32) : State :=
  if o = 0x4 then
    let s := s.setReg 0xB00004 (w32 (max 1 (fld w 0 8)))
    let s := if bit32 w 31 then s.askCkpt else s
    if bit32 w 30 then s.clearLg else s
  else if 0x1000 ≤ o ∧ o < 0x18C0 then
    { s with evr := { s.evr with routes := mset dfltRoute s.evr.routes ((o - 0x1000) / 4) (routeWord w) } }
  else s

/-- A write in the SDH region; MAX_MODE 0 and 8 to 15 store 6 (R635). -/
def State.sdhWrite (s : State) (o : Nat) (w : W32) : State :=
  if o = 0x8 then
    let v := fld w 0 4
    s.setReg 0xC00008 (w32 (if v = 0 ∨ 8 ≤ v then 6 else v))
  else if 0x100 ≤ o ∧ o < 0x118 then s.faultWrite blkSdh ((o - 0x100) / 4) w
  else s

/-- A write in the MGT region. -/
def State.mgtWrite (s : State) (o : Nat) (w : W32) : State := if o = 0x4 then s.setReg 0xD00004 (w &&& 7#32) else s

/-- A write in the MEM region. -/
def State.memWrite (s : State) (o : Nat) (w : W32) : State :=
  if o = 0x10 then s.after (execPowerLimitWrite (w.setWidth 8) s)
  else if 0x100 ≤ o ∧ o < 0x118 then s.faultWrite blkMem ((o - 0x100) / 4) w
  else s

/-- A write in the SUP region; only a write with DEV_RESET set is judged by its KEY (R549). -/
def State.supWrite (s : State) (o : Nat) (w : W32) : State :=
  if o = 0x1C then (if bit32 w 31 then s.after (execDevReset (w.setWidth 16) s) else s)
  else if 0x100 ≤ o ∧ o < 0x118 then s.faultWrite blkSup ((o - 0x100) / 4) w
  else s

/-- A write to a listed register of PF BAR0. -/
def State.pfRegWrite (s : State) (a : Nat) (w : W32) (image : HostRead) : State :=
  let o := a % 0x100000
  match a / 0x100000 with
  | 0 => if 0x40000 ≤ o ∧ o < 0x80000 then s.pageRegWrite 0 (o - 0x40000) w else s.hiuWrite o w
  | 1 => s.schWrite o w image
  | 2 => s.clWrite (o / 0x10000) (o % 0x10000) w
  | 4 => s.mauWrite (o / 0x1000) (o % 0x1000) w
  | 5 => s.ktWrite o w
  | 6 => s.entWrite o w
  | 7 => s.dgeWrite o w
  | 8 => s.dmaWrite o w
  | 9 => s.lccWrite o w
  | 10 => s.tmpWrite o w
  | 11 => s.evrWrite o w
  | 12 => s.sdhWrite o w
  | 13 => s.mgtWrite o w
  | 14 => s.memWrite o w
  | 15 => s.supWrite o w
  | _ => s

end Sys2Proof.Machine
end

