-- ==== Sys2Proof/Machine/RegRows.lean ====
section
/-!
DEFINITION. Accesses to registers: who may reach which, what an unlisted, closed or early access does, and the access events
(R10, R12 to R18, R43 to R46, R93, R399, R523, R544, R663); link errors (R402).
-/
namespace Sys2Proof.Machine

/-! ## Access events -/

/-- The event of an access that PF BAR0 does not list (R44, R101, R240, R336, R448, R474, R492, R505, R528, R548, R576,
R609, R634, R661). -/
def State.unlisted (s : State) (a : Nat) : State :=
  let o := a % 0x100000
  match a / 0x100000 with
  | 2 => s.raise (o / 0x10000) 23 0#32 0#32
  | 4 => if o < 0x20000 then s.mauAccess (o / 0x1000) else s.raiseHiu 10 0 0 0
  | 5 => s.raiseKt 11 0 0
  | 6 => s.raiseEnt 9 0 0 0
  | 7 => s.raiseDge 5 0 0 0
  | 8 => s.raiseDma 12 0 0
  | 9 => s.raise blkLcc 5 0#32 0#32
  | 10 => s.tmpAccess
  | 12 => s.raise blkSdh 5 0#32 0#32
  | 14 => s.raise blkMem 5 0#32 0#32
  | _ => s.raiseHiu 10 0 0 0

/-- The regions without an access event of their own raise HIU_REG_ACCESS (R549; log entry 53). -/
def hiuServed (a : Nat) : Bool := [0, 1, 11, 13, 15].contains (a / 0x100000)

/-- The access event of the region of a listed register (R14, R18, R663). -/
def State.accessEvent (s : State) (a : Nat) : State := if hiuServed a then s.raiseHiu 11 0 0 0 else s.unlisted a

/-- DE_DBG_CTRL, DE_DBG_ADDR and DE_DBG_DATA of a cluster. -/
def isDbgReg (a : Nat) : Bool := a / 0x100000 == 2 && [0x8000, 0x8004, 0x8008].contains (a % 0x10000)

/-- The registers that answer reads before READY (R544). -/
def earlyRead (a : Nat) : Bool :=
  [0x0, 0x4, 0x900000, 0x900004, 0x900010, 0x900014, 0xF00000, 0xF00004, 0xF00008, 0xF0000C, 0xF00010, 0xF00014,
   0xF00018].contains a

/-! ## Reads -/

/-- A read returns `v`. -/
def State.answerRead (s : State) (v : W32) : State := { s with rdata := v }

/-- A read that does more than return a value: the data registers, and the latch of SCH_GBEAT_LO (R100, R241, R321, R469). -/
def State.readActs (s : State) (sup : Bool) (a : Nat) : Option State :=
  let u := a / 0x1000 % 32
  if a = 0x100008 then some (State.answerRead { s with sch := { s.sch with gHigh := w32 (s.g / 2 ^ 32) } } (w32 s.g))
  else if a = 0x600034 then (if sup then none else some (s.after (execSwDataRead false s)))
  else if a = 0x60003C then (if sup then some (s.after (execSwDataRead true s)) else none)
  else if 0x400000 ≤ a ∧ a < 0x420000 ∧ a % 0x1000 = 0x24 then
    (if sup then none else some (s.after (execMauOpmDataAccess (idx 5 u) none s)))
  else if 0x200000 ≤ a ∧ a < 0x300000 ∧ a % 0x10000 = 0x8008 then
    (if sup then none else some (s.dbgDataRead (a / 0x10000 % 16)))
  else none

/-- A read of a register that is open: the fields without the reader's letter read as 0 (R18); the debug registers answer only
with readback enabled, and a denied access raises LCC_DEBUG_DENY (R37, R93). -/
def State.readOpen (s : State) (sup : Bool) (a : Nat) : State :=
  if isDbgReg a && !s.debugEn.getLsbD 1 then (s.answerRead 0#32).raise blkLcc 0 0#32 0#32
  else match s.readActs sup a with
    | some t => t
    | none => match s.pfView a with
      | some v => s.answerRead (v.val &&& (if sup then v.s else v.m))
      | none => (s.answerRead 0#32).unlisted a

/-- A read of PF BAR0 by the Manager: before READY only the registers of R544 answer. -/
def State.managerRead (s : State) (a : Nat) : State :=
  if s.boot.ready || (s.boot.power && !s.boot.perst && earlyRead a) then s.readOpen false a
  else (s.answerRead 0#32).bringupAccess 0

/-- A read of the VF BAR0 of instance `i` (R399, R523, R544). -/
def State.tenantRead (s : State) (i o : Nat) : State :=
  if i = 0 ∨ s.present i = false then s
  else State.pageWrite (s.answerRead 0#32) i fun s =>
    match s.pageView i o with
    | some v => s.answerRead v.val
    | none => s.raiseHiu 10 i 0 0

/-- A register read: its value stands in `rdata` (R12, R13, R18, R44, R45; log entry 56). -/
def execRegisterRead (party : Party) (offset : BitVec 26) (s : State) : Host.Outcome State Fault Refusal :=
  let a := offset.toNat / 4 * 4
  .next (match party with
  | .manager => s.managerRead a
  | .supervisor => s.readOpen true a
  | .tenant i => s.tenantRead i.toNat a)

/-! ## Writes -/

/-- The bits of a register that the writer's letters cover. -/
def View.letters (v : View) (sup : Bool) : W32 := if sup then v.s else v.m

/-- The write asks to change a field without the writer's letter: a bit written to it is 1 (R663). -/
def View.asks (v : View) (sup : Bool) (w : W32) : Bool := (w &&& (v.rw ||| v.w1) &&& ~~~(v.letters sup)) != 0#32

/-- The word as the writer's letters let it through: other fields keep what they hold (R18, R663). -/
def View.allowed (v : View) (sup : Bool) (w : W32) : W32 :=
  (w &&& v.letters sup) ||| (v.val &&& v.rw &&& ~~~(v.letters sup))

/-- The writer has the letter of some writable field. -/
def View.mayWrite (v : View) (sup : Bool) : Bool := ((v.rw ||| v.w1) &&& v.letters sup) != 0#32

/-- A write of PF BAR0 that is open (R14, R17, R18, R46, R93, R663). -/
def State.writeOpen (s : State) (sup : Bool) (a : Nat) (w : W32) (full : Bool) (image : HostRead) : State :=
  match s.pfView a with
  | none => s.unlisted a
  | some v =>
    if !full then s.accessEvent a
    else if isDbgReg a && !s.debugEn.getLsbD 1 then s.raise blkLcc 0 0#32 0#32
    else
      let s := if v.asks sup w then s.accessEvent a else s
      if v.mayWrite sup then s.pfRegWrite a (v.allowed sup w) image else s

/-- A write of the VF BAR0 of instance `i` (R14, R399, R523, R544). -/
def State.tenantWrite (s : State) (i o : Nat) (w : W32) (full : Bool) : State :=
  if i = 0 then s
  else s.pageWrite i fun s =>
    match s.pageView i o with
    | none => s.raiseHiu 10 i 0 0
    | some v => if !full then s.raiseHiu 11 i 0 0 else if v.mayWrite false then s.pageRegWrite i o w else s

/-- A register write with its byte enables (R12 to R18, R44 to R46, R663; log entry 56); `image` is what host memory gives
when the write makes the device fetch a score image. -/
def execRegisterWrite (party : Party) (offset : BitVec 26) (value : BitVec 32) (enables : BitVec 4) (image : HostRead)
    (s : State) : Host.Outcome State Fault Refusal :=
  let a := offset.toNat / 4 * 4
  let full := enables == 15#4
  .next (match party with
  | .manager => s.pfWrite fun s => s.writeOpen false a value full image
  | .supervisor => s.writeOpen true a value full image
  | .tenant i => s.tenantWrite i.toNat a value full)

/-! ## Link errors -/

/-- The HIU source of a link error (R402). -/
def pcieBit : PcieError → Nat
  | .corrected => 16 | .uncorrected => 17 | .fatal => 18 | .malformed => 31 | .poisoned => 13

/-- Advanced Error Reporting notes an error in its status registers, at the bits that PCI Express gives it (R339; log entry
113). -/
def Link.note (l : Link) : PcieError → Link
  | .corrected => { l with aerCor := l.aerCor ||| at32 1 14 }
  | .uncorrected => { l with aerUnc := l.aerUnc ||| at32 1 22 }
  | .fatal => { l with aerUnc := l.aerUnc ||| at32 1 22 }
  | .malformed => { l with aerUnc := l.aerUnc ||| at32 1 18 }
  | .poisoned => { l with aerUnc := l.aerUnc ||| at32 1 12 }

/-- A link error, or a TLP that is malformed or poisoned (R339, R402). -/
def execPcieErrorReceived (error : PcieError) (s : State) : Host.Outcome State Fault Refusal :=
  .next (if s.boot.power && !s.boot.perst then
    State.raiseHiu { s with link := s.link.note error } (pcieBit error) 0 0 0
  else s)

end Sys2Proof.Machine
end

