-- ==== Sys2Proof/Machine/Scalar.lean ====
section
/-!
DEFINITION. Scalar arithmetic (R118), scalar loads and stores (R119) and control-register access (R120).
-/
namespace Sys2Proof.Machine

/-- The timing row of a scalar arithmetic word (R181). -/
def scalarRow (f : SForm) (lat : Nat) : Row :=
  match f with
  | .sr f => { legal := f.zero == 0#37, reads := [.s f.sa.toNat, .s f.sb.toNat], writes := [(.s f.sd.toNat, lat)] }
  | .si f => { legal := f.sb == 0#5 && f.zero == 0#5, reads := [.s f.sa.toNat], writes := [(.s f.sd.toNat, lat)] }

/-- The destination register of a scalar form. -/
def sformDst : SForm → Nat
  | .sr f => f.sd.toNat
  | .si f => f.sd.toNat

/-- Operand a of a scalar form: s[sa]. -/
def sformA (e : Engine) : SForm → W64
  | .sr f => e.sreg f.sa.toNat
  | .si f => e.sreg f.sa.toNat

/-- Operand b of a scalar form: s[sb], or imm32 sign-extended (R115, R118). -/
def sformB (e : Engine) : SForm → W64
  | .sr f => e.sreg f.sb.toNat
  | .si f => f.imm.signExtend 64

/-- A scalar operation: sd takes `op a b` (R118). -/
def scalarOp (id : EngId) (f : SForm) (lat : Nat) (op : W64 → W64 → W64) :
    State → Host.Outcome State Fault Refusal :=
  issueWord id (fun _ => scalarRow f lat)
    (onEngine id fun e => e.setSreg (sformDst f) (op (sformA e f) (sformB e f)))

/-- ADD, ADDI. -/
def execAdd (id : EngId) (f : SForm) (s : State) : Host.Outcome State Fault Refusal :=
  scalarOp id f 1 (fun a b => a + b) s

/-- SUB. -/
def execSub (id : EngId) (f : SR) (s : State) : Host.Outcome State Fault Refusal :=
  scalarOp id (.sr f) 1 (fun a b => a - b) s

/-- AND, ANDI. -/
def execAnd (id : EngId) (f : SForm) (s : State) : Host.Outcome State Fault Refusal :=
  scalarOp id f 1 (fun a b => a &&& b) s

/-- OR, ORI. -/
def execOr (id : EngId) (f : SForm) (s : State) : Host.Outcome State Fault Refusal :=
  scalarOp id f 1 (fun a b => a ||| b) s

/-- XOR, XORI. -/
def execXor (id : EngId) (f : SForm) (s : State) : Host.Outcome State Fault Refusal :=
  scalarOp id f 1 (fun a b => a ^^^ b) s

/-- SLL, SLLI: the amount is b[5:0]. -/
def execSll (id : EngId) (f : SForm) (s : State) : Host.Outcome State Fault Refusal :=
  scalarOp id f 1 (fun a b => a <<< (b.toNat % 64)) s

/-- SRL, SRLI: zero fill. -/
def execSrl (id : EngId) (f : SForm) (s : State) : Host.Outcome State Fault Refusal :=
  scalarOp id f 1 (fun a b => a >>> (b.toNat % 64)) s

/-- SRA, SRAI: sign fill. -/
def execSra (id : EngId) (f : SForm) (s : State) : Host.Outcome State Fault Refusal :=
  scalarOp id f 1 (fun a b => a.sshiftRight (b.toNat % 64)) s

/-- MUL: the low 64 bits. -/
def execMul (id : EngId) (f : SR) (s : State) : Host.Outcome State Fault Refusal :=
  scalarOp id (.sr f) 3 (fun a b => a * b) s

/-- MULHU: the high 64 bits of the unsigned product. -/
def execMulhu (id : EngId) (f : SR) (s : State) : Host.Outcome State Fault Refusal :=
  scalarOp id (.sr f) 3 (fun a b => BitVec.ofNat 64 (a.toNat * b.toNat / 2 ^ 64)) s

/-- SLTU. -/
def execSltu (id : EngId) (f : SR) (s : State) : Host.Outcome State Fault Refusal :=
  scalarOp id (.sr f) 1 (fun a b => if a.ult b then 1#64 else 0#64) s

/-- SLT. -/
def execSlt (id : EngId) (f : SR) (s : State) : Host.Outcome State Fault Refusal :=
  scalarOp id (.sr f) 1 (fun a b => if a.slt b then 1#64 else 0#64) s

/-- MOVI: imm32 sign-extended; sa must be 0. -/
def execMovi (id : EngId) (f : SI) (s : State) : Host.Outcome State Fault Refusal :=
  issueWord id
    (fun _ => { legal := f.sa == 0#5 && f.sb == 0#5 && f.zero == 0#5, writes := [(.s f.sd.toNat, 1)] })
    (onEngine id fun e => e.setSreg f.sd.toNat (f.imm.signExtend 64)) s

/-- MOVHI: imm32 replaces the upper 32 bits of s[sa]. -/
def execMovhi (id : EngId) (f : SI) (s : State) : Host.Outcome State Fault Refusal :=
  scalarOp id (.si f) 1 (fun a _ => (a &&& 0xFFFFFFFF#64) ||| (f.imm.setWidth 64 <<< 32)) s

/-- The address of a scalar load or store (R119). -/
def siAddr (f : SI) (e : Engine) : Nat := effAddr (e.sreg f.sa.toNat) (f.imm.signExtend 64)

/-- The timing row of a scalar load of `n` bytes (R181). -/
def loadRow (f : SI) (n : Nat) (e : Engine) : Row :=
  { legal := f.zero == 0#5
    reads := [.s f.sa.toNat]
    writes := [(.s f.sd.toNat, if inCsm (siAddr f e) n then 32 else 3)]
    holds := [(.lsp, 1)] }

/-- A scalar load of `n` bytes, zero-extended (R119). -/
def scalarLoad (id : EngId) (f : SI) (n : Nat) : State → Host.Outcome State Fault Refusal :=
  issueWord id (loadRow f n) fun s =>
    let e := s.eng id.idx
    let a := siAddr f e
    match e.denied id.en.toNat a n n false with
    | some c => .stop c s
    | none =>
      if inDmem a n then
        if e.dmemBad a n then .exc .parity 0 0 s
        else .done (s.setEng id.idx (e.setSreg f.sd.toNat (BitVec.ofNat 64 (leNat (rdBytes e.dmem a n)))))
      else
        let r := s.csmLoad id.idx (a - 0x100000) n
        if s.csmFails id.idx (a - 0x100000) n (fun _ => true) then .exc .parity 4 0 s
        else .done (r.2.setEng id.idx (e.setSreg f.sd.toNat (BitVec.ofNat 64 (leNat r.1))))

/-- LDB. -/
def execLdb (id : EngId) (f : SI) (s : State) : Host.Outcome State Fault Refusal := scalarLoad id f 1 s
/-- LDH. -/
def execLdh (id : EngId) (f : SI) (s : State) : Host.Outcome State Fault Refusal := scalarLoad id f 2 s
/-- LDW. -/
def execLdw (id : EngId) (f : SI) (s : State) : Host.Outcome State Fault Refusal := scalarLoad id f 4 s
/-- LDD. -/
def execLdd (id : EngId) (f : SI) (s : State) : Host.Outcome State Fault Refusal := scalarLoad id f 8 s

/-- The timing row of a scalar store (R181). -/
def storeRow (f : SI) (_ : Engine) : Row :=
  { legal := f.sd == 0#5 && f.zero == 0#5, reads := [.s f.sa.toNat, .s f.sb.toNat], holds := [(.lsp, 1)] }

/-- A scalar store of the low `n` bytes of s[sb] (R119). -/
def scalarStore (id : EngId) (f : SI) (n : Nat) : State → Host.Outcome State Fault Refusal :=
  issueWord id (storeRow f) fun s =>
    let e := s.eng id.idx
    let a := siAddr f e
    let b := natLe n (e.sreg f.sb.toNat).toNat
    match e.denied id.en.toNat a n n true with
    | some c => .stop c s
    | none =>
      if inDmem a n then .done (s.setEng id.idx (e.dmemWrite a b))
      else .done (s.csmStore id.idx (a - 0x100000) b)

/-- STB. -/
def execStb (id : EngId) (f : SI) (s : State) : Host.Outcome State Fault Refusal := scalarStore id f 1 s
/-- STH. -/
def execSth (id : EngId) (f : SI) (s : State) : Host.Outcome State Fault Refusal := scalarStore id f 2 s
/-- STW. -/
def execStw (id : EngId) (f : SI) (s : State) : Host.Outcome State Fault Refusal := scalarStore id f 4 s
/-- STD. -/
def execStd (id : EngId) (f : SI) (s : State) : Host.Outcome State Fault Refusal := scalarStore id f 8 s

/-- An engine control register; none where the index is not listed (R54). -/
def Engine.creg (e : Engine) (id : EngId) (n : Nat) : Option W64 :=
  match n with
  | 0 => some (id.en.setWidth 64)
  | 1 => some (id.cl.setWidth 64)
  | 2 => some (BitVec.ofNat 64 e.vl)
  | 3 => some (BitVec.ofNat 64 e.pealEc)
  | 4 => some (BitVec.ofNat 64 e.callBase)
  | 5 => some (BitVec.ofNat 64 e.outBase)
  | 6 => some (if e.fresh then 1#64 else 0#64)
  | _ => none

/-- MFC: a control register to sd (R120). -/
def execMfc (id : EngId) (f : SI) (s : State) : Host.Outcome State Fault Refusal :=
  issueWord id
    (fun e => { legal := f.zero == 0#5 && decide (f.imm.toNat < 256)
                  && (e.creg id f.imm.toNat).isSome
                reads := if f.imm == 2#32 then [.vl] else []
                writes := [(.s f.sd.toNat, 1)] })
    (onEngine id fun e => e.setSreg f.sd.toNat ((e.creg id f.imm.toNat).getD 0#64)) s

/-- MTC: s[sa] to a control register; only VL may be written (R54, R120). -/
def execMtc (id : EngId) (f : SI) (s : State) : Host.Outcome State Fault Refusal :=
  issueWord id
    (fun _ => { legal := f.zero == 0#5 && f.imm == 2#32
                reads := [.s f.sa.toNat], writes := [(.vl, 1)] })
    (onEngine id fun e => e.setVl (e.sreg f.sa.toNat).toNat) s

end Sys2Proof.Machine
end

