-- ==== Sys2Proof/Machine/Shares.lean ====
section
/-!
DEFINITION. The share-domain instructions (R149 to R163) on share groups.
-/
namespace Sys2Proof.Machine

/-- The order of an SH word: imm16[1:0] (R151). -/
def shOrd (f : VV) : Nat := f.imm.toNat % 4

/-- P2: arithmetic shares are taken modulo 2^w (R151). -/
def shP2 (f : VV) : Bool := f.imm.getLsbD 2

/-- The modulus of arithmetic shares, or none where MS, W and P2 do not agree (R151). -/
def shMod (f : VV) (e : Engine) : Option Nat :=
  if shP2 f then (if f.ms == 0#3 then some (2 ^ widthOf f.w) else none) else e.modulus f.ms f.w

/-- Which kind of shares a word makes or takes. -/
inductive Kind
  | boolean
  | arith (m : Nat)
deriving DecidableEq, Repr

/-- The Boolean instructions: P2 and MS are 0 (R151). -/
def boolKind (f : VV) (_ : Engine) : Option Kind := if !shP2 f && f.ms == 0#3 then some .boolean else none

/-- The arithmetic instructions (R151). -/
def arithKind (f : VV) (e : Engine) : Option Kind := (shMod f e).map .arith

/-- SREF and SSPLIT: Boolean when MS and P2 are 0, else arithmetic (R157). -/
def eitherKind (f : VV) (e : Engine) : Option Kind :=
  if !shP2 f && f.ms == 0#3 then some .boolean else arithKind f e

/-- Combines shares of one element (R149). -/
def Kind.combine : Kind → List Nat → Nat
  | .boolean, l => l.foldl (fun a b => a ^^^ b) 0
  | .arith m, l => l.foldl (fun a b => (a + b) % m) 0

/-- Share 0 of a value whose other shares are given: the combination of all is the value (R149). -/
def Kind.share0 : Kind → Nat → List Nat → Nat
  | .boolean, x, l => l.foldl (fun a b => a ^^^ b) x
  | .arith m, x, l => imod ((x : Int) - ((l.foldl (fun a b => a + b) 0 : Nat) : Int)) m

/-- A mask brought into the range of a kind at width `w`. -/
def Kind.narrow (k : Kind) (w x : Nat) : Nat :=
  match k with
  | .boolean => x % 2 ^ w
  | .arith m => x % m

/-- The shares above share 0 that a drawing instruction gives element `i` (R158, R160; log entry 13). -/
def freshMasks (e : Engine) (k : Kind) (w ord i : Nat) : List Nat :=
  (List.range ord).map fun j => k.narrow w (Config.shareMask e.seed e.pealEc (j + 1) i)

/-- The legality every SH word shares but for the width: order, unused fields and immediate bits, groups, the pair form
(R109, R151, R157). -/
def shForm (f : VV) (used : List VField) (groups : List (BitVec 5)) (singles : List (BitVec 5)) : Bool :=
  vvOnly f ([.imm, .ms, .pm] ++ used) && decide (f.imm.toNat < 8) && (shOrd f == 1 || shOrd f == 2)
    && groups.all (fun b => groupOk (shOrd f) f.pr b) && pairOk f.pr f.w singles

/-- The legality of an SH word: its form, at 16, 32 or 64 bits (R157). -/
def shLegal (f : VV) (used : List VField) (groups : List (BitVec 5)) (singles : List (BitVec 5)) : Bool :=
  shForm f used groups singles && f.w != 0#2

/-- The legality of SA2B, which R182 times at 8 bits too, for shares modulo 2^w (log entry 96). -/
def sa2bLegal (f : VV) : Bool := shForm f [.vd, .va] [f.vd, f.va] [] && (f.w != 0#2 || shP2 f)

/-- The row of an SH word: `occ` and `lat` are those of d1 and d2, single form (R180, R181). -/
def shRow (f : VV) (legal : Bool) (srcs : List Loc) (dsts : List Loc) (occ lat draw : Nat × Nat) : Row :=
  let pick (p : Nat × Nat) : Nat := if shOrd f == 2 then p.2 else p.1
  let o := pick occ
  let d := formOcc f.pr (pick draw)
  { legal := legal
    vec := true
    draw := d
    reads := [.vl, .p f.pm.toNat] ++ srcs
    writes := dsts.map fun l => (l, formLat f.pr o (pick lat))
    holds := (.vxu, formOcc f.pr o) :: (if d = 0 then [] else [(.mrg, d)]) }

/-- The registers of an SH operand group. -/
def shGroup (f : VV) (b : BitVec 5) : List Loc := groupRegs (shOrd f) f.pr b.toNat

/-- Element `i` of every share of a group. -/
def shElem (f : VV) (e : Engine) (b : BitVec 5) (i : Nat) : List Nat :=
  (e.shares (shOrd f) f.pr b.toNat).map fun v => lane (widthOf f.w) v i

/-- Writes the active elements of every share of a destination group: `g j i` is element `i` of share `j` (R152). -/
def writeShares (f : VV) (ord : Nat) (b : BitVec 5) (g : Nat → Nat → Nat) (e : Engine) : Engine :=
  let w := widthOf f.w
  let cnt := countOf w f.pr
  let act := e.active w f.pr f.pm
  let old := e.shares ord f.pr b.toNat
  e.setShares f.pr b.toNat 0
    ((List.range (sharesOf ord)).map fun j => mapLanes w act (g j) (old.getD j 0#8192) cnt)

/-- Writes fresh shares of `val i` into a group: masks above share 0, the rest in share 0. -/
def writeFresh (f : VV) (k : Kind) (b : BitVec 5) (val : Nat → Nat) (e : Engine) : Engine :=
  writeShares f (shOrd f) b (fun j i =>
    let masks := freshMasks e k (widthOf f.w) (shOrd f) i
    if j = 0 then k.share0 (val i) masks else masks.getD (j - 1) 0) e

/-- A share-by-share operation of two groups. -/
def shareBin (id : EngId) (f : VV) (kind : VV → Engine → Option Kind) (op : Kind → Nat → Nat → Nat → Nat) :
    State → Host.Outcome State Fault Refusal :=
  issueWord id
    (fun e => shRow f (shLegal f [.vd, .va, .vb] [f.vd, f.va, f.vb] [] && (kind f e).isSome)
      (slotReads f.ms ++ shGroup f f.va ++ shGroup f f.vb) (shGroup f f.vd) (16, 24) (20, 28) (0, 0))
    (onEngine id fun e =>
      let k := (kind f e).getD .boolean
      writeShares f (shOrd f) f.vd (fun j i =>
        op k (widthOf f.w) ((shElem f e f.va i).getD j 0) ((shElem f e f.vb i).getD j 0)) e)

/-- The modulus of a kind. -/
def Kind.modulus : Kind → Nat
  | .boolean => 1
  | .arith m => m

/-- SMADD (R157). -/
def execSmadd (id : EngId) (f : VV) (s : State) : Host.Outcome State Fault Refusal :=
  shareBin id f arithKind (fun k _ a b => (a + b) % k.modulus) s
/-- SMSUB (R157). -/
def execSmsub (id : EngId) (f : VV) (s : State) : Host.Outcome State Fault Refusal :=
  shareBin id f arithKind (fun k _ a b => imod ((a : Int) - b) k.modulus) s
/-- SXOR (R157). -/
def execSxor (id : EngId) (f : VV) (s : State) : Host.Outcome State Fault Refusal :=
  shareBin id f boolKind (fun _ _ a b => a ^^^ b) s

/-- SMMULC: each share by a public operand, in Montgomery form; P2 must be 0 (R157). -/
def execSmmulc (id : EngId) (f : VV) (s : State) : Host.Outcome State Fault Refusal :=
  issueWord id
    (fun e => shRow f (shLegal f [.vd, .va, .vb] [f.vd, f.va] [f.vb] && !shP2 f && (e.modulus f.ms f.w).isSome)
      (slotReads f.ms ++ shGroup f f.va ++ formRegs f.pr f.vb.toNat) (shGroup f f.vd) (16, 24) (20, 28) (0, 0))
    (onEngine id fun e =>
      writeShares f (shOrd f) f.vd (fun j i =>
        montMul (widthOf f.w) (modOf f e) ((shElem f e f.va i).getD j 0) (elem f f.vb e i)) e) s

/-- A public operand into share 0; the other shares are copied. -/
def sharePub (id : EngId) (f : VV) (kind : VV → Engine → Option Kind) (op : Kind → Nat → Nat → Nat) :
    State → Host.Outcome State Fault Refusal :=
  issueWord id
    (fun e => shRow f (shLegal f [.vd, .va, .vb] [f.vd, f.va] [f.vb] && (kind f e).isSome)
      (slotReads f.ms ++ shGroup f f.va ++ formRegs f.pr f.vb.toNat) (shGroup f f.vd) (8, 8) (12, 12) (0, 0))
    (onEngine id fun e =>
      let k := (kind f e).getD .boolean
      writeShares f (shOrd f) f.vd (fun j i =>
        let a := (shElem f e f.va i).getD j 0
        if j = 0 then op k a (elem f f.vb e i) else a) e)

/-- SADDP (R157). -/
def execSaddp (id : EngId) (f : VV) (s : State) : Host.Outcome State Fault Refusal :=
  sharePub id f arithKind (fun k a b => (a + b) % k.modulus) s
/-- SXORP (R157). -/
def execSxorp (id : EngId) (f : VV) (s : State) : Host.Outcome State Fault Refusal :=
  sharePub id f boolKind (fun _ a b => a ^^^ b) s

/-- SAND: fresh shares of the AND of two Boolean groups (R158). -/
def execSand (id : EngId) (f : VV) (s : State) : Host.Outcome State Fault Refusal :=
  issueWord id
    (fun e => shRow f (shLegal f [.vd, .va, .vb] [f.vd, f.va, f.vb] [] && (boolKind f e).isSome)
      (shGroup f f.va ++ shGroup f f.vb) (shGroup f f.vd) (24, 56) (28, 60) (8, 24))
    (onEngine id fun e => writeFresh f .boolean f.vd (fun i =>
      Kind.boolean.combine (shElem f e f.va i) &&& Kind.boolean.combine (shElem f e f.vb i)) e) s

/-- SREF: fresh shares of the same value (R157). -/
def execSref (id : EngId) (f : VV) (s : State) : Host.Outcome State Fault Refusal :=
  issueWord id
    (fun e => shRow f (shLegal f [.vd, .va] [f.vd, f.va] [] && (eitherKind f e).isSome)
      (slotReads f.ms ++ shGroup f f.va) (shGroup f f.vd) (16, 24) (20, 28) (8, 16))
    (onEngine id fun e =>
      let k := (eitherKind f e).getD .boolean
      writeFresh f k f.vd (fun i => k.combine (shElem f e f.va i)) e) s

/-- SSPLIT: fresh shares of a public register (R157). -/
def execSsplit (id : EngId) (f : VV) (s : State) : Host.Outcome State Fault Refusal :=
  issueWord id
    (fun e => shRow f (shLegal f [.vd, .va] [f.vd] [f.va] && (eitherKind f e).isSome)
      (slotReads f.ms ++ formRegs f.pr f.va.toNat) (shGroup f f.vd) (16, 24) (20, 28) (8, 16))
    (onEngine id fun e =>
      let k := (eitherKind f e).getD .boolean
      writeFresh f k f.vd (fun i => elem f f.va e i) e) s

/-- SOPEN: the combined value into a public register (R160). -/
def execSopen (id : EngId) (f : VV) (s : State) : Host.Outcome State Fault Refusal :=
  issueWord id
    (fun e => shRow f (shLegal f [.vd, .va] [f.va] [f.vd] && (eitherKind f e).isSome)
      (slotReads f.ms ++ shGroup f f.va) (formRegs f.pr f.vd.toNat) (24, 40) (28, 44) (8, 16))
    (onEngine id fun e =>
      let k := (eitherKind f e).getD .boolean
      laneWrite f (fun e i => k.combine (shElem f e f.va i)) e) s

/-- The occupancy of SB2A: P2 = 1, then P2 = 0 (R181). -/
def sb2aOcc (f : VV) : Nat × Nat := if shP2 f then (32, 96) else (40, 112)

/-- SB2A: arithmetic shares of a Boolean value, its residue mod q where P2 = 0 (R159). -/
def execSb2a (id : EngId) (f : VV) (s : State) : Host.Outcome State Fault Refusal :=
  issueWord id
    (fun e => shRow f (shLegal f [.vd, .va] [f.vd, f.va] [] && (shMod f e).isSome)
      (slotReads f.ms ++ shGroup f f.va) (shGroup f f.vd) (sb2aOcc f) ((sb2aOcc f).1 + 4, (sb2aOcc f).2 + 4) (8, 32))
    (onEngine id fun e =>
      let m := (shMod f e).getD 1
      writeFresh f (.arith m) f.vd (fun i => Kind.boolean.combine (shElem f e f.va i) % m) e) s

/-- The VXU occupancy of SA2B, by width, order and P2 (R182). -/
def sa2bOcc (f : VV) : Nat × Nat :=
  match f.w.toNat, shP2 f with
  | 1, true => (80, 240) | 1, false => (112, 336)
  | 2, true => (144, 432) | 2, false => (176, 528)
  | 3, true => (272, 816) | 3, false => (304, 912)
  | _, _ => (48, 144)

/-- SA2B: Boolean shares of the arithmetic value reduced into [0, M) (R159, R182). -/
def execSa2b (id : EngId) (f : VV) (s : State) : Host.Outcome State Fault Refusal :=
  let o := sa2bOcc f
  issueWord id
    (fun e => shRow f (sa2bLegal f && (shMod f e).isSome)
      (slotReads f.ms ++ shGroup f f.va) (shGroup f f.vd) o (o.1 + 4, o.2 + 4) (o.1 / 2, o.2 / 2))
    (onEngine id fun e =>
      let m := (shMod f e).getD 1
      writeFresh f .boolean f.vd (fun i => (Kind.arith m).combine (shElem f e f.va i) % m) e) s

/-- SCSEL: fresh shares of a where bit 0 of the combined vc is 1, else of b (R163). -/
def execScsel (id : EngId) (f : VV) (s : State) : Host.Outcome State Fault Refusal :=
  issueWord id
    (fun e => shRow f (shLegal f [.vd, .va, .vb, .vc] [f.vd, f.va, f.vb, f.vc] [] && (boolKind f e).isSome)
      (shGroup f f.va ++ shGroup f f.vb ++ shGroup f f.vc) (shGroup f f.vd) (48, 112) (52, 116) (16, 48))
    (onEngine id fun e => writeFresh f .boolean f.vd (fun i =>
      if (Kind.boolean.combine (shElem f e f.vc i)) % 2 = 1 then Kind.boolean.combine (shElem f e f.va i)
      else Kind.boolean.combine (shElem f e f.vb i)) e) s

/-- The 512 mask-generator bits of one ec (R76). -/
def mrgWord (seed : BitVec 256) (t : Nat) : Nat :=
  (Config.mrgLane seed 0 t).toNat + 2 ^ 128 * (Config.mrgLane seed 1 t).toNat
    + 2 ^ 256 * (Config.mrgLane seed 2 t).toNat + 2 ^ 384 * (Config.mrgLane seed 3 t).toNat

/-- MRD: mask-generator output in element order (R161); ORD must be 0, MS and P2 0. -/
def execMrd (id : EngId) (f : VV) (s : State) : Host.Outcome State Fault Refusal :=
  issueWord id
    (fun _ => let r := vxuRow f (vvOnly f [.vd, .pm]) [] [f.vd] 8 10
              { r with draw := formOcc f.pr 8, holds := (.mrg, formOcc f.pr 8) :: r.holds })
    (onEngine id (laneWrite f fun e i =>
      let w := widthOf f.w
      mrgWord e.seed (e.pealEc + w * i / 512) / 2 ^ (w * i % 512) % 2 ^ w)) s

end Sys2Proof.Machine
end

