-- ==== Sys2Proof/Machine/VMem.lean ====
section
/-!
DEFINITION. Vector memory forms (R143 to R147), with the partial effects of R88 and R90 to R92.
-/
namespace Sys2Proof.Machine

/-- The base address A = s[sa] + off20 (R115). -/
def vmBase (f : VM) (e : Engine) : Nat := effAddr (e.sreg f.sa.toNat) (f.off.signExtend 64)

/-- Bytes per element. -/
def vmBytes (f : VM) : Nat := widthOf f.w / 8

/-- The zero field is 0; the fields a form does not use are not looked at (R109, R110; log entry 95). -/
def vmZero (f : VM) : Bool := f.zero == 0#4

/-- Element `i` is active in a VM word (R112). -/
def vmActive (f : VM) (e : Engine) (i : Nat) : Bool := e.active (widthOf f.w) f.pr f.pm i

/-- The row of VLD and VST; a store to CSM takes its source at issue (R65, R181). -/
def blockRow (f : VM) (load : Bool) (e : Engine) : Row :=
  let n := if f.pr then 1024 else 512
  let csm := inCsm (vmBase f e) n
  { legal := vmZero f && f.nf == 0#2 && f.sc == 0#2 && pairOk f.pr f.w [f.vd]
    vec := true
    atIssue := csm && !load
    reads := [.vl, .p f.pm.toNat, .s f.sa.toNat] ++ (if load then [] else formRegs f.pr f.vd.toNat)
    writes := if load then (formRegs f.pr f.vd.toNat).map fun l => (l, if csm then 32 else formLat f.pr 8 9) else []
    holds := [(.lsp, if csm then 8 else formOcc f.pr 8)] }

/-- Byte `k` of the block belongs to an active element. -/
def blockByteActive (f : VM) (e : Engine) (k : Nat) : Bool := vmActive f e (k / vmBytes f)

/-- The whole block is checked for range, alignment and the CSM rules before any effect; a pair form reaches DMEM only
(R144). A store is refused in the constant region where an active element lies there: an inactive one cannot fault (R60,
R113). -/
def blockDenied (f : VM) (e : Engine) (en a : Nat) (store : Bool) : Option Cause :=
  let n := if f.pr then 1024 else 512
  if f.pr && inCsm a n then some .addrRange
  else match e.denied en a n 64 false with
    | some c => some c
    | none =>
      if store && inDmem a n && (List.range n).any (fun k => blockByteActive f e k &&
          decide (a + k < (e.resident.map (·.constLen)).getD 0)) then some .constWrite
      else none

/-- A byte of an active element of the block at `a` in DMEM fails its parity check (R113, R581). -/
def blockBad (f : VM) (e : Engine) (a n : Nat) : Bool :=
  e.badParity.any fun p => match p with
    | .dmem x => decide (a ≤ x) && decide (x < a + n) && blockByteActive f e (x - a)
    | _ => false

/-- VLD: the block at A into the active elements (R144). -/
def execVld (id : EngId) (f : VM) (s : State) : Host.Outcome State Fault Refusal :=
  issueWord id (blockRow f true)
    (fun s =>
      let e := s.eng id.idx
      let a := vmBase f e
      let n := if f.pr then 1024 else 512
      let put (b : Bytes) : Engine := e.setWide f.pr f.vd.toNat
        (mapLanes 8 (blockByteActive f e) (fun k => (b.getD k 0#8).toNat) (e.wide f.pr f.vd.toNat) n)
      match blockDenied f e id.en.toNat a false with
      | some c => .stop c s
      | none =>
        if inDmem a n then
          if blockBad f e a n then .exc .parity 0 0 s else .done (s.setEng id.idx (put (rdBytes e.dmem a n)))
        else
          let r := s.csmLoad id.idx (a - 0x100000) n
          if s.csmFails id.idx (a - 0x100000) n (blockByteActive f e) then .exc .parity 4 0 s
          else .done (r.2.setEng id.idx (put r.1))) s

/-- Stores the bytes of active elements at `a`, byte by byte. -/
def storeActive (act : Nat → Bool) (v : Wide) (a : Nat) (e : Engine) : Nat → Engine
  | 0 => e
  | k + 1 =>
    let e' := storeActive act v a e k
    if act k then e'.dmemWrite (a + k) [BitVec.ofNat 8 (lane 8 v k)] else e'

/-- Queues the CSM bytes of active elements, byte by byte (R179). -/
def csmStoreActive (act : Nat → Bool) (v : Wide) (i o : Nat) (s : State) : Nat → State
  | 0 => s
  | k + 1 =>
    let s' := csmStoreActive act v i o s k
    if act k then s'.csmStore i (o + k) [BitVec.ofNat 8 (lane 8 v k)] else s'

/-- VST: only the bytes of active elements are stored (R144). -/
def execVst (id : EngId) (f : VM) (s : State) : Host.Outcome State Fault Refusal :=
  issueWord id (blockRow f false)
    (fun s =>
      let e := s.eng id.idx
      let a := vmBase f e
      let n := if f.pr then 1024 else 512
      let v := e.wide f.pr f.vd.toNat
      match blockDenied f e id.en.toNat a true with
      | some c => .stop c s
      | none =>
        if inDmem a n then .done (s.setEng id.idx (storeActive (blockByteActive f e) v a e n))
        else .done (csmStoreActive (blockByteActive f e) v id.idx (a - 0x100000) s n)) s

/-- The first element in `[k, k + n)` that is active and faults, in ascending index (R90). -/
def firstFault (act : Nat → Bool) (bad : Nat → Option Cause) (k : Nat) : Nat → Option (Nat × Cause)
  | 0 => none
  | n + 1 => match (if act k then bad k else none) with
    | some c => some (k, c)
    | none => firstFault act bad (k + 1) n

/-- The load of one element from DMEM. -/
def elemAt (f : VM) (e : Engine) (a : Nat) : Nat := leNat (rdBytes e.dmem a (vmBytes f))

/-- VLDFF: elements up to the first faulting one; VL and pd are trimmed (R92, R145). -/
def execVldff (id : EngId) (f : VM) (s : State) : Host.Outcome State Fault Refusal :=
  issueWord id
    (fun _ => { legal := vmZero f && f.nf == 0#2 && f.sc == 0#2 && f.pm == 0#3 && f.pd != 0#3
                  && pairOk f.pr f.w [f.vd]
                vec := true
                reads := [.vl, .s f.sa.toNat]
                writes := [(.vl, formLat f.pr 8 9), (.p f.pd.toNat, formLat f.pr 8 9)]
                  ++ (formRegs f.pr f.vd.toNat).map (fun l => (l, formLat f.pr 8 9))
                holds := [(.lsp, formOcc f.pr 8)] })
    (fun s =>
      let e := s.eng id.idx
      let w := widthOf f.w
      let a := vmBase f e
      let n := e.limit w f.pr
      let bad (i : Nat) : Option Cause := e.dmemDenied (a + i * vmBytes f) (vmBytes f) (vmBytes f) false
      let load (m : Nat) : Engine := e.setWide f.pr f.vd.toNat
        (mapLanes w (fun i => decide (i < m)) (fun i => elemAt f e (a + i * vmBytes f))
          (e.wide f.pr f.vd.toNat) (countOf w f.pr))
      let pdOf (m : Nat) : PReg := BitVec.ofNat 512 (2 ^ m - 1)
      let first := firstFault (fun _ => true) bad 0 n
      if e.dmemBad a (((first.map (·.1)).getD n) * vmBytes f) then .exc .parity 0 0 s
      else match first with
        | none => .done (s.setEng id.idx ((load n).setPreg f.pd.toNat (pdOf n)))
        | some (0, c) => .stop c s
        | some (j, _) => .done (s.setEng id.idx (((load j).setPreg f.pd.toNat (pdOf j)).setVl j))) s

/-- The address of element `i` of a gather or scatter (R146). -/
def gsAddr (f : VM) (e : Engine) (i : Nat) : Nat :=
  effAddr (BitVec.ofNat 64 (vmBase f e)) (BitVec.ofNat 64 (lane (widthOf f.w) (e.wide f.pr f.vi.toNat) i * 2 ^ f.sc.toNat))

/-- The LSP occupancy of a gather or scatter (R181). -/
def gsOcc (f : VM) : Nat := formOcc f.pr (64 / vmBytes f)

/-- The row of a gather or scatter (R181). -/
def gsRow (f : VM) (load : Bool) (_ : Engine) : Row :=
  { legal := vmZero f && f.nf == 0#2 && pairOk f.pr f.w [f.vd, f.vi]
    vec := true
    reads := [.vl, .p f.pm.toNat, .s f.sa.toNat] ++ formRegs f.pr f.vi.toNat
      ++ (if load then [] else formRegs f.pr f.vd.toNat)
    writes := if load then (formRegs f.pr f.vd.toNat).map fun l => (l, gsOcc f + 3) else []
    holds := [(.lsp, gsOcc f)] }

/-- The elements a resumed instruction starts from (R97): those below DE_ERI are already done. -/
def fromEri (e : Engine) (act : Nat → Bool) (i : Nat) : Bool := decide (e.eri ≤ i) && act i

/-- VGTH: gathers in ascending index; at a fault the elements below it are written (R88, R90, R146). -/
def execVgth (id : EngId) (f : VM) (s : State) : Host.Outcome State Fault Refusal :=
  issueWord id (gsRow f true)
    (fun s =>
      let e := s.eng id.idx
      let w := widthOf f.w
      let cnt := countOf w f.pr
      let act := fromEri e (vmActive f e)
      let bad (i : Nat) : Option Cause := e.dmemDenied (gsAddr f e i) (vmBytes f) (vmBytes f) false
      let load (m : Nat) : State := s.setEng id.idx (e.setWide f.pr f.vd.toNat
        (mapLanes w (fun i => act i && decide (i < m)) (fun i => elemAt f e (gsAddr f e i))
          (e.wide f.pr f.vd.toNat) cnt))
      let first := firstFault act bad 0 cnt
      if (List.range ((first.map (·.1)).getD cnt)).any (fun i => act i && e.dmemBad (gsAddr f e i) (vmBytes f)) then
        .exc .parity 0 0 s
      else match first with
        | none => .done (load cnt)
        | some (j, c) => .exc c c.source j (load j)) s

/-- Stores element after element, in ascending index (R146). -/
def storeElems (act : Nat → Bool) (addr : Nat → Nat) (val : Nat → Bytes) (e : Engine) : Nat → Engine
  | 0 => e
  | k + 1 =>
    let e' := storeElems act addr val e k
    if act k then e'.dmemWrite (addr k) (val k) else e'

/-- VSCT: scatters in ascending index; no element at or above a fault is stored (R90, R146). -/
def execVsct (id : EngId) (f : VM) (s : State) : Host.Outcome State Fault Refusal :=
  issueWord id (gsRow f false)
    (fun s =>
      let e := s.eng id.idx
      let w := widthOf f.w
      let cnt := countOf w f.pr
      let act := fromEri e (vmActive f e)
      let v := e.wide f.pr f.vd.toNat
      let bad (i : Nat) : Option Cause := e.dmemDenied (gsAddr f e i) (vmBytes f) (vmBytes f) true
      let store (m : Nat) : State := s.setEng id.idx
        (storeElems act (gsAddr f e) (fun i => natLe (vmBytes f) (lane w v i)) e m)
      match firstFault act bad 0 cnt with
      | none => .done (store cnt)
      | some (j, c) => .exc c c.source j (store j)) s

/-- The number of fields of a structure (R147). -/
def structFields (f : VM) : Nat := f.nf.toNat + 1

/-- The address of field `k` of structure `i` (R147). -/
def structAddr (f : VM) (e : Engine) (i k : Nat) : Nat :=
  (vmBase f e + (i * structFields f + k) * vmBytes f) % 2 ^ 64

/-- Why structure `i` faults: a misaligned base first, then bytes outside DMEM or in the constant region (R58, R60, R147;
log entry 99). -/
def structBad (f : VM) (e : Engine) (store : Bool) (i : Nat) : Option Cause :=
  if vmBase f e % 64 != 0 then some .addrAlign
  else e.dmemDenied (structAddr f e i 0) (structFields f * vmBytes f) 1 store

/-- The registers of a structure form. -/
def structRegs (f : VM) : List Loc := (List.range (structFields f)).map fun k => .v (f.vd.toNat + k)

/-- The row of a structure form (R181). -/
def structRow (f : VM) (load : Bool) (_ : Engine) : Row :=
  { legal := vmZero f && !f.pr && f.nf != 0#2 && f.sc == 0#2
      && decide (f.vd.toNat + structFields f ≤ 32)
    vec := true
    reads := [.vl, .p f.pm.toNat, .s f.sa.toNat] ++ (if load then [] else structRegs f)
    writes := if load then (structRegs f).map fun l => (l, 8 * structFields f + 1) else []
    holds := [(.lsp, 8 * structFields f)] }

/-- Writes field `k` of the structures below `m` into its register, for every field (R147). -/
def loadFields (f : VM) (old : Engine) (act : Nat → Bool) (m : Nat) (e : Engine) : Nat → Engine
  | 0 => e
  | k + 1 =>
    let e' := loadFields f old act m e k
    let w := widthOf f.w
    e'.setWide false (f.vd.toNat + k)
      (mapLanes w (fun i => act i && decide (i < m)) (fun i => elemAt f old (structAddr f old i k))
        (old.wide false (f.vd.toNat + k)) (countOf w false))

/-- VLDS: structures into successive registers, each completely or not at all (R91, R147). -/
def execVlds (id : EngId) (f : VM) (s : State) : Host.Outcome State Fault Refusal :=
  issueWord id (structRow f true)
    (fun s =>
      let e := s.eng id.idx
      let cnt := countOf (widthOf f.w) false
      let act := fromEri e (vmActive f e)
      let load (m : Nat) : State := s.setEng id.idx (loadFields f e act m e (structFields f))
      let first := firstFault act (structBad f e false) 0 cnt
      if (List.range ((first.map (·.1)).getD cnt)).any (fun i =>
          act i && e.dmemBad (structAddr f e i 0) (structFields f * vmBytes f)) then .exc .parity 0 0 s
      else match first with
        | none => .done (load cnt)
        | some (j, c) => .exc c c.source j (load j)) s

/-- The bytes of structure `i`. -/
def structBytes (f : VM) (e : Engine) (i : Nat) : Bytes :=
  (List.range (structFields f)).flatMap fun k =>
    natLe (vmBytes f) (lane (widthOf f.w) (e.wide false (f.vd.toNat + k)) i)

/-- VSTS: structures from successive registers (R91, R147). -/
def execVsts (id : EngId) (f : VM) (s : State) : Host.Outcome State Fault Refusal :=
  issueWord id (structRow f false)
    (fun s =>
      let e := s.eng id.idx
      let cnt := countOf (widthOf f.w) false
      let act := fromEri e (vmActive f e)
      let store (m : Nat) : State := s.setEng id.idx
        (storeElems act (fun i => structAddr f e i 0) (structBytes f e) e m)
      match firstFault act (structBad f e true) 0 cnt with
      | none => .done (store cnt)
      | some (j, c) => .exc c c.source j (store j)) s

end Sys2Proof.Machine
end

