-- ==== Sys2Proof/Machine/Dispatch.lean ====
section
/-!
DEFINITION. One arm for each command: its meaning, or a refusal by name.
-/
namespace Sys2Proof.Machine

/-- The effect of a command on everything but the queue. -/
def exec (i : Instr) (s : State) : Host.Outcome State Fault Refusal :=
  match i with
  | .add id f => Sys2Proof.Machine.execAdd id f s
  | .sub id f => Sys2Proof.Machine.execSub id f s
  | .and id f => Sys2Proof.Machine.execAnd id f s
  | .or id f => Sys2Proof.Machine.execOr id f s
  | .xor id f => Sys2Proof.Machine.execXor id f s
  | .sll id f => Sys2Proof.Machine.execSll id f s
  | .srl id f => Sys2Proof.Machine.execSrl id f s
  | .sra id f => Sys2Proof.Machine.execSra id f s
  | .mul id f => Sys2Proof.Machine.execMul id f s
  | .mulhu id f => Sys2Proof.Machine.execMulhu id f s
  | .sltu id f => Sys2Proof.Machine.execSltu id f s
  | .slt id f => Sys2Proof.Machine.execSlt id f s
  | .movi id f => Sys2Proof.Machine.execMovi id f s
  | .movhi id f => Sys2Proof.Machine.execMovhi id f s
  | .ldb id f => Sys2Proof.Machine.execLdb id f s
  | .ldh id f => Sys2Proof.Machine.execLdh id f s
  | .ldw id f => Sys2Proof.Machine.execLdw id f s
  | .ldd id f => Sys2Proof.Machine.execLdd id f s
  | .stb id f => Sys2Proof.Machine.execStb id f s
  | .sth id f => Sys2Proof.Machine.execSth id f s
  | .stw id f => Sys2Proof.Machine.execStw id f s
  | .std id f => Sys2Proof.Machine.execStd id f s
  | .mfc id f => Sys2Proof.Machine.execMfc id f s
  | .mtc id f => Sys2Proof.Machine.execMtc id f s
  | .nopn id f => Sys2Proof.Machine.execNopn id f s
  | .waitb id f => Sys2Proof.Machine.execWaitb id f s
  | .jmp id f => Sys2Proof.Machine.execJmp id f s
  | .callSub id f => Sys2Proof.Machine.execCallSub id f s
  | .ret id f => Sys2Proof.Machine.execRet id f s
  | .loop id f => Sys2Proof.Machine.execLoop id f s
  | .endPeal id f => Sys2Proof.Machine.execEndPeal id f s
  | .pand id f => Sys2Proof.Machine.execPand id f s
  | .por id f => Sys2Proof.Machine.execPor id f s
  | .pxor id f => Sys2Proof.Machine.execPxor id f s
  | .pandn id f => Sys2Proof.Machine.execPandn id f s
  | .pnot id f => Sys2Proof.Machine.execPnot id f s
  | .psetn id f => Sys2Proof.Machine.execPsetn id f s
  | .pcnt id f => Sys2Proof.Machine.execPcnt id f s
  | .vcmpeq id f => Sys2Proof.Machine.execVcmpeq id f s
  | .vcmpltu id f => Sys2Proof.Machine.execVcmpltu id f s
  | .vcmplts id f => Sys2Proof.Machine.execVcmplts id f s
  | .vadd id f => Sys2Proof.Machine.execVadd id f s
  | .vsub id f => Sys2Proof.Machine.execVsub id f s
  | .vmullo id f => Sys2Proof.Machine.execVmullo id f s
  | .vmulhu id f => Sys2Proof.Machine.execVmulhu id f s
  | .vmulhs id f => Sys2Proof.Machine.execVmulhs id f s
  | .vand id f => Sys2Proof.Machine.execVand id f s
  | .vor id f => Sys2Proof.Machine.execVor id f s
  | .vxor id f => Sys2Proof.Machine.execVxor id f s
  | .vandn id f => Sys2Proof.Machine.execVandn id f s
  | .vslli id f => Sys2Proof.Machine.execVslli id f s
  | .vsrli id f => Sys2Proof.Machine.execVsrli id f s
  | .vsrai id f => Sys2Proof.Machine.execVsrai id f s
  | .vsllv id f => Sys2Proof.Machine.execVsllv id f s
  | .vsrlv id f => Sys2Proof.Machine.execVsrlv id f s
  | .vbcast id f => Sys2Proof.Machine.execVbcast id f s
  | .vmov id f => Sys2Proof.Machine.execVmov id f s
  | .viota id f => Sys2Proof.Machine.execViota id f s
  | .vext id f => Sys2Proof.Machine.execVext id f s
  | .vperm id f => Sys2Proof.Machine.execVperm id f s
  | .vmodset id f => Sys2Proof.Machine.execVmodset id f s
  | .vmadd id f => Sys2Proof.Machine.execVmadd id f s
  | .vmsub id f => Sys2Proof.Machine.execVmsub id f s
  | .vmneg id f => Sys2Proof.Machine.execVmneg id f s
  | .vmmulm id f => Sys2Proof.Machine.execVmmulm id f s
  | .vmmulb id f => Sys2Proof.Machine.execVmmulb id f s
  | .vmmulms id f => Sys2Proof.Machine.execVmmulms id f s
  | .vmred id f => Sys2Proof.Machine.execVmred id f s
  | .vmcent id f => Sys2Proof.Machine.execVmcent id f s
  | .vmlift id f => Sys2Proof.Machine.execVmlift id f s
  | .vbfct id f => Sys2Proof.Machine.execVbfct id f s
  | .vbfgs id f => Sys2Proof.Machine.execVbfgs id f s
  | .vbfctx id f => Sys2Proof.Machine.execVbfctx id f s
  | .vbfgsx id f => Sys2Proof.Machine.execVbfgsx id f s
  | .vbmul id f => Sys2Proof.Machine.execVbmul id f s
  | .vgfset id f => Sys2Proof.Machine.execVgfset id f s
  | .vgfmul id f => Sys2Proof.Machine.execVgfmul id f s
  | .vgfsqr id f => Sys2Proof.Machine.execVgfsqr id f s
  | .vgfinv id f => Sys2Proof.Machine.execVgfinv id f s
  | .vclmullo id f => Sys2Proof.Machine.execVclmullo id f s
  | .vclmulhi id f => Sys2Proof.Machine.execVclmulhi id f s
  | .vcompr id f => Sys2Proof.Machine.execVcompr id f s
  | .vdecompr id f => Sys2Proof.Machine.execVdecompr id f s
  | .vpack id f => Sys2Proof.Machine.execVpack id f s
  | .vunpack id f => Sys2Proof.Machine.execVunpack id f s
  | .vp2r id f => Sys2Proof.Machine.execVp2r id f s
  | .vsplit id f => Sys2Proof.Machine.execVsplit id f s
  | .vld id f => Sys2Proof.Machine.execVld id f s
  | .vst id f => Sys2Proof.Machine.execVst id f s
  | .vldff id f => Sys2Proof.Machine.execVldff id f s
  | .vgth id f => Sys2Proof.Machine.execVgth id f s
  | .vsct id f => Sys2Proof.Machine.execVsct id f s
  | .vlds id f => Sys2Proof.Machine.execVlds id f s
  | .vsts id f => Sys2Proof.Machine.execVsts id f s
  | .smadd id f => Sys2Proof.Machine.execSmadd id f s
  | .smsub id f => Sys2Proof.Machine.execSmsub id f s
  | .smmulc id f => Sys2Proof.Machine.execSmmulc id f s
  | .saddp id f => Sys2Proof.Machine.execSaddp id f s
  | .sxor id f => Sys2Proof.Machine.execSxor id f s
  | .sxorp id f => Sys2Proof.Machine.execSxorp id f s
  | .sand id f => Sys2Proof.Machine.execSand id f s
  | .sref id f => Sys2Proof.Machine.execSref id f s
  | .sb2a id f => Sys2Proof.Machine.execSb2a id f s
  | .sa2b id f => Sys2Proof.Machine.execSa2b id f s
  | .ssplit id f => Sys2Proof.Machine.execSsplit id f s
  | .sopen id f => Sys2Proof.Machine.execSopen id f s
  | .scsel id f => Sys2Proof.Machine.execScsel id f s
  | .mrd id f => Sys2Proof.Machine.execMrd id f s
  | .vcsel id f => Sys2Proof.Machine.execVcsel id f s
  | .kinit id f => Sys2Proof.Machine.execKinit id f s
  | .kabs id f => Sys2Proof.Machine.execKabs id f s
  | .kperm id f => Sys2Proof.Machine.execKperm id f s
  | .ksqz id f => Sys2Proof.Machine.execKsqz id f s
  | .ksave id f => Sys2Proof.Machine.execKsave id f s
  | .krest id f => Sys2Proof.Machine.execKrest id f s
  | .vcbd id f => Sys2Proof.Machine.execVcbd id f s
  | .vsrej id f => Sys2Proof.Machine.execVsrej id f s
  | .kld id f => Sys2Proof.Machine.execKld id f s
  | .kst id f => Sys2Proof.Machine.execKst id f s
  | .startBeat id => Sys2Proof.Machine.execStartBeat id s
  | .scrubBeat id => Sys2Proof.Machine.execScrubBeat id s
  | .releaseBeat id => Sys2Proof.Machine.execReleaseBeat id s
  | .seedDelivery id => Sys2Proof.Machine.execSeedDelivery id s
  | .wakeWindowClear cluster => Sys2Proof.Machine.execWakeWindowClear cluster s
  | .wakeCountDone cluster powerGood => Sys2Proof.Machine.execWakeCountDone cluster powerGood s
  | .vectorIdle cluster => Sys2Proof.Machine.execVectorIdle cluster s
  | .gatingDone cluster => Sys2Proof.Machine.execGatingDone cluster s
  | .debugEnSet cluster sel haltExc => Sys2Proof.Machine.execDebugEnSet cluster sel haltExc s
  | .debugEnClear cluster => Sys2Proof.Machine.execDebugEnClear cluster s
  | .debugHalt cluster => Sys2Proof.Machine.execDebugHalt cluster s
  | .debugStep cluster => Sys2Proof.Machine.execDebugStep cluster s
  | .debugResume cluster => Sys2Proof.Machine.execDebugResume cluster s
  | .debugDataAccess cluster write value => Sys2Proof.Machine.execDebugDataAccess cluster write value s
  | .clusterRst cluster => Sys2Proof.Machine.execClusterRst cluster s
  | .clusterOos cluster on => Sys2Proof.Machine.execClusterOos cluster on s
  | .forceOn cluster on => Sys2Proof.Machine.execForceOn cluster on s
  | .schLoadGo cmd image => Sys2Proof.Machine.execSchLoadGo cmd image s
  | .scoreVerifyDone => Sys2Proof.Machine.execScoreVerifyDone s
  | .schLoadDrop cmd => Sys2Proof.Machine.execSchLoadDrop cmd s
  | .schPlaceGo cmd => Sys2Proof.Machine.execSchPlaceGo cmd s
  | .engineLoadDone cluster => Sys2Proof.Machine.execEngineLoadDone cluster s
  | .admitCall => Sys2Proof.Machine.execAdmitCall s
  | .floorPeriodEnd => Sys2Proof.Machine.execFloorPeriodEnd s
  | .stagingDone call input records => Sys2Proof.Machine.execStagingDone call input records s
  | .startSlip call => Sys2Proof.Machine.execStartSlip call s
  | .streamWindowLate id entry => Sys2Proof.Machine.execStreamWindowLate id entry s
  | .outputPushDone call => Sys2Proof.Machine.execOutputPushDone call s
  | .completionFifoDrain cluster => Sys2Proof.Machine.execCompletionFifoDrain cluster s
  | .staggerEnd call => Sys2Proof.Machine.execStaggerEnd call s
  | .mlKemKeygen id => Sys2Proof.Machine.execMlKemKeygen id s
  | .mlKemEncaps id => Sys2Proof.Machine.execMlKemEncaps id s
  | .mlKemDecaps id => Sys2Proof.Machine.execMlKemDecaps id s
  | .mlDsaKeygen id => Sys2Proof.Machine.execMlDsaKeygen id s
  | .mlDsaSign id => Sys2Proof.Machine.execMlDsaSign id s
  | .mlDsaVerify id => Sys2Proof.Machine.execMlDsaVerify id s
  | .fnDsaKeygen id => Sys2Proof.Machine.execFnDsaKeygen id s
  | .fnDsaSign id => Sys2Proof.Machine.execFnDsaSign id s
  | .fnDsaVerify id => Sys2Proof.Machine.execFnDsaVerify id s
  | .slhDsaKeygen id => Sys2Proof.Machine.execSlhDsaKeygen id s
  | .slhDsaSign id => Sys2Proof.Machine.execSlhDsaSign id s
  | .slhDsaSignContinuation id => Sys2Proof.Machine.execSlhDsaSignContinuation id s
  | .slhDsaVerify id => Sys2Proof.Machine.execSlhDsaVerify id s
  | .slhDsaVerifyContinuation id => Sys2Proof.Machine.execSlhDsaVerifyContinuation id s
  | .treeBegin id => Sys2Proof.Machine.execTreeBegin id s
  | .treeStep id => Sys2Proof.Machine.execTreeStep id s
  | .treeEnd id => Sys2Proof.Machine.execTreeEnd id s
  | .lmsSign id => Sys2Proof.Machine.execLmsSign id s
  | .lmsHssVerify id => Sys2Proof.Machine.execLmsHssVerify id s
  | .xmssSign id => Sys2Proof.Machine.execXmssSign id s
  | .xmssVerify id => Sys2Proof.Machine.execXmssVerify id s
  | .hqcKeygen id => Sys2Proof.Machine.execHqcKeygen id s
  | .hqcEncaps id => Sys2Proof.Machine.execHqcEncaps id s
  | .hqcDecaps id => Sys2Proof.Machine.execHqcDecaps id s
  | .mceDecaps id => Sys2Proof.Machine.execMceDecaps id s
  | .mceEncBegin id => Sys2Proof.Machine.execMceEncBegin id s
  | .mceEncSeg id => Sys2Proof.Machine.execMceEncSeg id s
  | .mceEncEnd id => Sys2Proof.Machine.execMceEncEnd id s
  | .mceKgBegin id => Sys2Proof.Machine.execMceKgBegin id s
  | .mceKgStep id => Sys2Proof.Machine.execMceKgStep id s
  | .mceKgEnd id => Sys2Proof.Machine.execMceKgEnd id s
  | .mcePkOut id => Sys2Proof.Machine.execMcePkOut id s
  | .xKeygen id => Sys2Proof.Machine.execXKeygen id s
  | .xExchange id => Sys2Proof.Machine.execXExchange id s
  | .edKeygen id => Sys2Proof.Machine.execEdKeygen id s
  | .edSign id => Sys2Proof.Machine.execEdSign id s
  | .edVerify id => Sys2Proof.Machine.execEdVerify id s
  | .hybridServer id => Sys2Proof.Machine.execHybridServer id s
  | .hybridClient id => Sys2Proof.Machine.execHybridClient id s
  | .hkdfSha256 id => Sys2Proof.Machine.execHkdfSha256 id s
  | .hkdfSha384 id => Sys2Proof.Machine.execHkdfSha384 id s
  | .kmac128 id => Sys2Proof.Machine.execKmac128 id s
  | .kmac256 id => Sys2Proof.Machine.execKmac256 id s
  | .userScoreCall id out status accept key0 key1 => Sys2Proof.Machine.execUserScoreCall id out status accept key0 key1 s
  | .rsaKeygen unit => Sys2Proof.Machine.execRsaKeygen unit s
  | .rsaSign unit => Sys2Proof.Machine.execRsaSign unit s
  | .rsaVerify unit => Sys2Proof.Machine.execRsaVerify unit s
  | .rsaDecrypt unit => Sys2Proof.Machine.execRsaDecrypt unit s
  | .rsaEncrypt unit => Sys2Proof.Machine.execRsaEncrypt unit s
  | .ecKeygen unit => Sys2Proof.Machine.execEcKeygen unit s
  | .ecdsaSign unit => Sys2Proof.Machine.execEcdsaSign unit s
  | .ecdsaVerify unit => Sys2Proof.Machine.execEcdsaVerify unit s
  | .ecdh unit => Sys2Proof.Machine.execEcdh unit s
  | .ecCurveLoad unit => Sys2Proof.Machine.execEcCurveLoad unit s
  | .mauRaw unit => Sys2Proof.Machine.execMauRaw unit s
  | .rawLoad unit => Sys2Proof.Machine.execRawLoad unit s
  | .rawStore unit => Sys2Proof.Machine.execRawStore unit s
  | .rawModset unit => Sys2Proof.Machine.execRawModset unit s
  | .rawMadd unit => Sys2Proof.Machine.execRawMadd unit s
  | .rawMsub unit => Sys2Proof.Machine.execRawMsub unit s
  | .rawMmul unit => Sys2Proof.Machine.execRawMmul unit s
  | .rawMsqr unit => Sys2Proof.Machine.execRawMsqr unit s
  | .rawTomont unit => Sys2Proof.Machine.execRawTomont unit s
  | .rawFrommont unit => Sys2Proof.Machine.execRawFrommont unit s
  | .rawMexp unit => Sys2Proof.Machine.execRawMexp unit s
  | .rawMinv unit => Sys2Proof.Machine.execRawMinv unit s
  | .rawEcset unit => Sys2Proof.Machine.execRawEcset unit s
  | .rawEcchk unit => Sys2Proof.Machine.execRawEcchk unit s
  | .rawEcadd unit => Sys2Proof.Machine.execRawEcadd unit s
  | .rawEcmul unit => Sys2Proof.Machine.execRawEcmul unit s
  | .mauPlace call input records => Sys2Proof.Machine.execMauPlace call input records s
  | .mauCallStart unit fault => Sys2Proof.Machine.execMauCallStart unit fault s
  | .mauCallEnd unit fault => Sys2Proof.Machine.execMauCallEnd unit fault s
  | .mauClearDone unit half => Sys2Proof.Machine.execMauClearDone unit half s
  | .mauDirectSet unit => Sys2Proof.Machine.execMauDirectSet unit s
  | .mauDirectClear unit => Sys2Proof.Machine.execMauDirectClear unit s
  | .mauRcmdHiWrite unit value => Sys2Proof.Machine.execMauRcmdHiWrite unit value s
  | .mauDirectDone unit => Sys2Proof.Machine.execMauDirectDone unit s
  | .mauOpmDataAccess unit write => Sys2Proof.Machine.execMauOpmDataAccess unit write s
  | .mauAbort unit => Sys2Proof.Machine.execMauAbort unit s
  | .mauAbortTake unit => Sys2Proof.Machine.execMauAbortTake unit s
  | .mauOos unit on => Sys2Proof.Machine.execMauOos unit on s
  | .mauPatchDataWrite unit value => Sys2Proof.Machine.execMauPatchDataWrite unit value s
  | .mauPatchLock unit value => Sys2Proof.Machine.execMauPatchLock unit value s
  | .sqDoorbell inst queue value => Sys2Proof.Machine.execSqDoorbell inst queue value s
  | .cqDoorbell inst queue value => Sys2Proof.Machine.execCqDoorbell inst queue value s
  | .descriptorTake inst queue entry fault => Sys2Proof.Machine.execDescriptorTake inst queue entry fault s
  | .descriptorFetchFail inst read => Sys2Proof.Machine.execDescriptorFetchFail inst read s
  | .completionWrite inst queue parity => Sys2Proof.Machine.execCompletionWrite inst queue parity s
  | .qpEnSet inst queue value => Sys2Proof.Machine.execQpEnSet inst queue value s
  | .qpEnClear inst queue value => Sys2Proof.Machine.execQpEnClear inst queue value s
  | .queueDrainEnd inst queue => Sys2Proof.Machine.execQueueDrainEnd inst queue s
  | .activeMaxWrite inst value => Sys2Proof.Machine.execActiveMaxWrite inst value s
  | .budgetPeriodEnd => Sys2Proof.Machine.execBudgetPeriodEnd s
  | .msixUnmask inst vector => Sys2Proof.Machine.execMsixUnmask inst vector s
  | .mbxDoorbellGo inst => Sys2Proof.Machine.execMbxDoorbellGo inst s
  | .mailboxAnswer inst supParity => Sys2Proof.Machine.execMailboxAnswer inst supParity s
  | .mailboxTimeout inst => Sys2Proof.Machine.execMailboxTimeout inst s
  | .quiesceSet inst => Sys2Proof.Machine.execQuiesceSet inst s
  | .quiesceClear inst => Sys2Proof.Machine.execQuiesceClear inst s
  | .quiesceDone inst => Sys2Proof.Machine.execQuiesceDone inst s
  | .freezeSet inst => Sys2Proof.Machine.execFreezeSet inst s
  | .freezeClear inst => Sys2Proof.Machine.execFreezeClear inst s
  | .instanceReset inst => Sys2Proof.Machine.execInstanceReset inst s
  | .flrBegin inst => Sys2Proof.Machine.execFlrBegin inst s
  | .flrComplete inst => Sys2Proof.Machine.execFlrComplete inst s
  | .vfEnableClear => Sys2Proof.Machine.execVfEnableClear s
  | .linkDown => Sys2Proof.Machine.execLinkDown s
  | .getVersions inst => Sys2Proof.Machine.execGetVersions inst s
  | .getIdentity inst => Sys2Proof.Machine.execGetIdentity inst s
  | .attest inst => Sys2Proof.Machine.execAttest inst s
  | .keyImport inst message record => Sys2Proof.Machine.execKeyImport inst message record s
  | .hamperPrepare inst => Sys2Proof.Machine.execHamperPrepare inst s
  | .hamperSave inst records => Sys2Proof.Machine.execHamperSave inst records s
  | .hamperRestore inst hamper => Sys2Proof.Machine.execHamperRestore inst hamper s
  | .getRandom inst => Sys2Proof.Machine.execGetRandom inst s
  | .keyGenerate call => Sys2Proof.Machine.execKeyGenerate call s
  | .keyDestroy call => Sys2Proof.Machine.execKeyDestroy call s
  | .keyInfo call => Sys2Proof.Machine.execKeyInfo call s
  | .keyRestrict call => Sys2Proof.Machine.execKeyRestrict call s
  | .keyExport call records => Sys2Proof.Machine.execKeyExport call records s
  | .keyPublicLoad call input => Sys2Proof.Machine.execKeyPublicLoad call input s
  | .keySave call records => Sys2Proof.Machine.execKeySave call records s
  | .keyLoad call input => Sys2Proof.Machine.execKeyLoad call input s
  | .sweepPassStart => Sys2Proof.Machine.execSweepPassStart s
  | .sweepStep => Sys2Proof.Machine.execSweepStep s
  | .bbramRemask => Sys2Proof.Machine.execBbramRemask s
  | .supShareRead share => Sys2Proof.Machine.execSupShareRead share s
  | .vaultEnWrite on => Sys2Proof.Machine.execVaultEnWrite on s
  | .sourceHealthFail src apt => Sys2Proof.Machine.execSourceHealthFail src apt s
  | .startupTestPass src apt => Sys2Proof.Machine.execStartupTestPass src apt s
  | .sourceRetry src => Sys2Proof.Machine.execSourceRetry src s
  | .sourceRestart mask => Sys2Proof.Machine.execSourceRestart mask s
  | .entropyBlockFormed bits => Sys2Proof.Machine.execEntropyBlockFormed bits s
  | .drbgInstantiate drbg => Sys2Proof.Machine.execDrbgInstantiate drbg s
  | .drbgReseed drbg => Sys2Proof.Machine.execDrbgReseed drbg s
  | .drbgRequest => Sys2Proof.Machine.execDrbgRequest s
  | .drbgParity drbg => Sys2Proof.Machine.execDrbgParity drbg s
  | .entStart katOk => Sys2Proof.Machine.execEntStart katOk s
  | .swDataRead sup => Sys2Proof.Machine.execSwDataRead sup s
  | .swBufferRefill sup => Sys2Proof.Machine.execSwBufferRefill sup s
  | .ivReserveRefill => Sys2Proof.Machine.execIvReserveRefill s
  | .digestOpen inst => Sys2Proof.Machine.execDigestOpen inst s
  | .digestUpdate inst => Sys2Proof.Machine.execDigestUpdate inst s
  | .digestFinal inst last => Sys2Proof.Machine.execDigestFinal inst last s
  | .digestClose inst => Sys2Proof.Machine.execDigestClose inst s
  | .dgeCxOpen inst ctx alg => Sys2Proof.Machine.execDgeCxOpen inst ctx alg s
  | .dgeCxUpdate inst ctx => Sys2Proof.Machine.execDgeCxUpdate inst ctx s
  | .dgeCxFinish inst ctx => Sys2Proof.Machine.execDgeCxFinish inst ctx s
  | .dgeCxClose inst ctx => Sys2Proof.Machine.execDgeCxClose inst ctx s
  | .digestJobEnd unit data fault => Sys2Proof.Machine.execDigestJobEnd unit data fault s
  | .digestSwitch unit data => Sys2Proof.Machine.execDigestSwitch unit data s
  | .saveEnWrite reg value => Sys2Proof.Machine.execSaveEnWrite reg value s
  | .dmaGo chan ctrl => Sys2Proof.Machine.execDmaGo chan ctrl s
  | .dmaPauseSet chan => Sys2Proof.Machine.execDmaPauseSet chan s
  | .dmaPauseClear chan => Sys2Proof.Machine.execDmaPauseClear chan s
  | .dmaAbort chan => Sys2Proof.Machine.execDmaAbort chan s
  | .dmaPaused chan prog data => Sys2Proof.Machine.execDmaPaused chan prog data s
  | .dmaDone chan data => Sys2Proof.Machine.execDmaDone chan data s
  | .dmaErrorHalt chan source write prog addr data memCh lane => Sys2Proof.Machine.execDmaErrorHalt chan source write prog addr data memCh lane s
  | .lcChallenge inst => Sys2Proof.Machine.execLcChallenge inst s
  | .lcTransition inst package => Sys2Proof.Machine.execLcTransition inst package s
  | .rawTestTransition serial => Sys2Proof.Machine.execRawTestTransition serial s
  | .lcRootStepDone => Sys2Proof.Machine.execLcRootStepDone s
  | .lcCopyDone => Sys2Proof.Machine.execLcCopyDone s
  | .lcReadbackDone => Sys2Proof.Machine.execLcReadbackDone s
  | .debugUnlock inst response => Sys2Proof.Machine.execDebugUnlock inst response s
  | .powerOn => Sys2Proof.Machine.execPowerOn s
  | .perstNAssert => Sys2Proof.Machine.execPerstNAssert s
  | .perstNRelease strap => Sys2Proof.Machine.execPerstNRelease strap s
  | .devReset key => Sys2Proof.Machine.execDevReset key s
  | .lockstepDisagree => Sys2Proof.Machine.execLockstepDisagree s
  | .watchdogExpiry => Sys2Proof.Machine.execWatchdogExpiry s
  | .pllLock => Sys2Proof.Machine.execPllLock s
  | .otpLoad parityError => Sys2Proof.Machine.execOtpLoad parityError s
  | .sramClearDone => Sys2Proof.Machine.execSramClearDone s
  | .dramTrainingDone ok0 ok1 gib0 gib1 speed => Sys2Proof.Machine.execDramTrainingDone ok0 ok1 gib0 gib1 speed s
  | .slotSelection => Sys2Proof.Machine.execSlotSelection s
  | .cardRecovery image => Sys2Proof.Machine.execCardRecovery image s
  | .imageSignatureCheck => Sys2Proof.Machine.execImageSignatureCheck s
  | .bbramCheck => Sys2Proof.Machine.execBbramCheck s
  | .mauPatchLoad => Sys2Proof.Machine.execMauPatchLoad s
  | .knownAnswerTests sealOk digestOk mauFail => Sys2Proof.Machine.execKnownAnswerTests sealOk digestOk mauFail s
  | .evrRestore norFail => Sys2Proof.Machine.execEvrRestore norFail s
  | .clusterSelfTest cluster result => Sys2Proof.Machine.execClusterSelfTest cluster result s
  | .readiness => Sys2Proof.Machine.execReadiness s
  | .fwCommit inst => Sys2Proof.Machine.execFwCommit inst s
  | .fwWrite inst image => Sys2Proof.Machine.execFwWrite inst image s
  | .railGlitch rail below => Sys2Proof.Machine.execRailGlitch rail below s
  | .railSlowExcursion rail below => Sys2Proof.Machine.execRailSlowExcursion rail below s
  | .detectorDisagree rail below => Sys2Proof.Machine.execDetectorDisagree rail below s
  | .tempAlarm tj => Sys2Proof.Machine.execTempAlarm tj s
  | .clockFault => Sys2Proof.Machine.execClockFault s
  | .xtalStop => Sys2Proof.Machine.execXtalStop s
  | .tamperInputActive input => Sys2Proof.Machine.execTamperInputActive input s
  | .meshBreach pair => Sys2Proof.Machine.execMeshBreach pair s
  | .shadowMismatch region offset => Sys2Proof.Machine.execShadowMismatch region offset s
  | .holdEnd => Sys2Proof.Machine.execHoldEnd s
  | .rearm bits => Sys2Proof.Machine.execRearm bits s
  | .tmpLevelWrite reg value => Sys2Proof.Machine.execTmpLevelWrite reg value s
  | .tmpLock value => Sys2Proof.Machine.execTmpLock value s
  | .batteryEnter => Sys2Proof.Machine.execBatteryEnter s
  | .batteryWindow active => Sys2Proof.Machine.execBatteryWindow active s
  | .batteryXtalStop => Sys2Proof.Machine.execBatteryXtalStop s
  | .vbatLoss => Sys2Proof.Machine.execVbatLoss s
  | .evidenceMove => Sys2Proof.Machine.execEvidenceMove s
  | .governorEvaluation demand => Sys2Proof.Machine.execGovernorEvaluation demand s
  | .governorRelease => Sys2Proof.Machine.execGovernorRelease s
  | .powerLimitWrite limit => Sys2Proof.Machine.execPowerLimitWrite limit s
  | .vholdSample reserve => Sys2Proof.Machine.execVholdSample reserve s
  | .fstatClear block mask => Sys2Proof.Machine.execFstatClear block mask s
  | .fforce block mask => Sys2Proof.Machine.execFforce block mask s
  | .evrRecordWrite ringParity => Sys2Proof.Machine.execEvrRecordWrite ringParity s
  | .checkpointStart => Sys2Proof.Machine.execCheckpointStart s
  | .checkpointDone norFail => Sys2Proof.Machine.execCheckpointDone norFail s
  | .routeReset => Sys2Proof.Machine.execRouteReset s
  | .ckptNow => Sys2Proof.Machine.execCkptNow s
  | .lgClear => Sys2Proof.Machine.execLgClear s
  | .cardDetectChange present => Sys2Proof.Machine.execCardDetectChange present s
  | .cardInitDone card => Sys2Proof.Machine.execCardInitDone card s
  | .sdWriteBusyEnd answer wp => Sys2Proof.Machine.execSdWriteBusyEnd answer wp s
  | .sdTimeout wait => Sys2Proof.Machine.execSdTimeout wait s
  | .sdInfo inst crcError => Sys2Proof.Machine.execSdInfo inst crcError s
  | .sdList inst crcError => Sys2Proof.Machine.execSdList inst crcError s
  | .sdRead inst crcError => Sys2Proof.Machine.execSdRead inst crcError s
  | .sdWrite inst payload wp => Sys2Proof.Machine.execSdWrite inst payload wp s
  | .sdLogExport inst wp => Sys2Proof.Machine.execSdLogExport inst wp s
  | .getId bus => Sys2Proof.Machine.execGetId bus s
  | .getStatus bus => Sys2Proof.Machine.execGetStatus bus s
  | .setOffset bus offset => Sys2Proof.Machine.execSetOffset bus offset s
  | .certLen bus => Sys2Proof.Machine.execCertLen bus s
  | .readCert bus => Sys2Proof.Machine.execReadCert bus s
  | .attestStart bus nonce => Sys2Proof.Machine.execAttestStart bus nonce s
  | .attestState bus => Sys2Proof.Machine.execAttestState bus s
  | .readReport bus => Sys2Proof.Machine.execReadReport bus s
  | .attestReportReady => Sys2Proof.Machine.execAttestReportReady s
  | .i3cAddressAssign addr => Sys2Proof.Machine.execI3cAddressAssign addr s
  | .registerWrite party offset value enables image => Sys2Proof.Machine.execRegisterWrite party offset value enables image s
  | .registerRead party offset => Sys2Proof.Machine.execRegisterRead party offset s
  | .undefinedInstructionWord id word => Sys2Proof.Machine.execUndefinedWord id word s
  | .linkTrained speed width flit => Sys2Proof.Machine.execLinkTrained speed width flit s
  | .pcieErrorReceived error => Sys2Proof.Machine.execPcieErrorReceived error s
  | .vfEnableSet numVfs => Sys2Proof.Machine.execVfEnableSet numVfs s
  | .dramTrainingLost ch => Sys2Proof.Machine.execDramTrainingLost ch s
  | .alarmSourceInactive src unit => Sys2Proof.Machine.execAlarmSourceInactive src unit s
  | .streamFillDone call entry data => Sys2Proof.Machine.execStreamFillDone call entry data s
  | .jtagAccess supervisor => Sys2Proof.Machine.execJtagAccess supervisor s
  | .mgtUnlistedCode code => Sys2Proof.Machine.execMgtUnlistedCode code s

end Sys2Proof.Machine
end

