-- ==== Sys2Proof/Machine/MauMicro.lean ====
section
/-!
DEFINITION. The microcode sequencer of a MAU (R331 to R333), and the global beat that passes while no command waits.
-/
namespace Sys2Proof.Machine

/-! ## Microwords (R331) -/

/-- The fields of a microword. -/
def uNext (w : BitVec 160) : Nat := (w.extractLsb' 147 13).toNat
def uSeq (w : BitVec 160) : Nat := (w.extractLsb' 144 3).toNat
def uCond (w : BitVec 160) : Nat := (w.extractLsb' 140 4).toNat
def uCnt (w : BitVec 160) : Nat := (w.extractLsb' 138 2).toNat
def uSp (w : BitVec 160) : Bool := w.getLsbD 137
def uData (w : BitVec 160) : BitVec 137 := w.setWidth 137

/-- The match register of a unit that is enabled for a microaddress; the lowest of several (R333, R337; log entry 110). -/
def State.microMatch (s : State) (u a : Nat) : Option W32 :=
  ((List.range 16).map fun k => s.reg (0x400040 + 0x1000 * u + 4 * k)).find? fun r => bit32 r 31 && fld r 16 12 == a

/-- The microword a unit fetches at a microaddress: from patch RAM where a match register says so, else from ROM or patch RAM;
none outside both (R332, R333). -/
def State.microFetch (s : State) (u a : Nat) : Option (BitVec 160) :=
  let ram (i : Nat) : BitVec 160 := mget (fun _ => 0#160) (s.mau u).patch i
  if 0x1400 ≤ a then none
  else if 0x1000 ≤ a then some (ram (a - 0x1000))
  else match s.microMatch u a with
    | some r => some (ram (fld r 0 10))
    | none => some (Config.rom a)

/-- A loop counter. -/
def Mau.loop (m : Mau) (k : Nat) : Nat := m.loops.getD k 0

/-- Condition COND at a use; `n` is fresh. -/
def Mau.cond (m : Mau) (c n : Nat) : Bool :=
  match c with
  | 0 => true
  | 1 => m.loop 0 == 0
  | 2 => m.loop 1 == 0
  | 3 => m.loop 2 == 0
  | 4 => m.loop 3 == 0
  | c => Config.microCond c n

/-- What the sequencer does next (R331, R332). -/
inductive MicroStep
  | go (addr : Nat) (stack : List Nat) (loops : List Nat)
  | stop
  | fault

/-- SEQ of a microword at the unit's microaddress. The micro-stack has 8 places (R331, R332). -/
def Mau.sequence (m : Mau) (w : BitVec 160) (n : Nat) : MicroStep :=
  let next := m.uaddr + 1
  match uSeq w with
  | 0 => .go next m.stack m.loops
  | 1 => .go (uNext w) m.stack m.loops
  | 2 => .go (if m.cond (uCond w) n then uNext w else next) m.stack m.loops
  | 3 => if 8 ≤ m.stack.length then .fault else .go (uNext w) (next :: m.stack) m.loops
  | 4 => match m.stack with
    | [] => .fault
    | a :: t => .go a t m.loops
  | 5 =>
    let v := m.loop (uCnt w)
    let v' := if v = 0 then Config.counterWrap else v - 1
    .go (if v' = 0 then next else uNext w) m.stack (m.loops.set (uCnt w) v')
  | 6 => .stop
  | _ => .fault

/-- Loop counters after the datapath bits of a microword (R331). -/
def microLoads (w : BitVec 160) (l : List Nat) : List Nat :=
  l.mapIdx fun k v => (Config.counterLoad (uData w) k).getD v

/-- A fault of the sequencer: MAU_FAULT with cause 6 ends the call, or as an abort the direct command (R330, R332; log entry
110). -/
def State.microFault (s : State) (u : Nat) : State :=
  let m := s.mau u
  if (s.runCall u).isSome then s.mauFaultAt u 6 m.uaddr
  else (s.raise (blkMau + u) 0 (at32 6 24 ||| at32 m.inst 16 ||| at32 (m.uaddr % 8192) 0) 0#32).directEnd u 4

/-- One mc of a unit: its sequencer carries out one microword, and an abort in mode 0 takes effect at a word with SP
(R324, R331 to R333). -/
def State.microStep (s : State) (u : Nat) : State :=
  let m := s.mau u
  if !m.uon then s
  else match s.microFetch u m.uaddr with
    | none => s.microFault u
    | some w =>
      if uSp w && m.abortReq && !s.abortAtEnd u then s.mauAbortNow u
      else match m.sequence w s.freeCtr with
        | .fault => s.microFault u
        | .stop => s.setMau u { m with uon := false }
        | .go a st l => (s.setMau u { m with uaddr := a, stack := st, loops := microLoads w l }).useFree 1

/-- The mc that end in global beat `g`: 25.6 a beat. -/
def mcOf (g : Nat) : Nat := 128 * (g + 1) / 5 - 128 * g / 5

/-- `n` mc of every unit. -/
def State.microRun (s : State) : Nat → State
  | 0 => s
  | n + 1 => State.microRun ((List.range 32).foldl State.microStep s) n

/-- One global beat passes and no command is carried out: the sequencers of the MAUs run on (log entry 1). -/
def State.idleBeat (s : State) : State := (s.microRun (mcOf s.g)).goTo (s.g + 1)

end Sys2Proof.Machine
end

