-- ==== Sys2Proof/Safety.lean ====
section
/-!
DEFINITION. The terms the claims use: a command that runs to a next state with a property, the canonical form of the
memories, the one-way fuses, what every command keeps, and what an engine word leaves alone.
-/
namespace Sys2Proof.Machine

/-- The command carries out its effect on `s`: it answers a next state that has the property. -/
def Runs (c : Instr) (s : State) (after : State → Prop) : Prop := ∃ t, exec c s = .next t ∧ after t

/-- The memories and the key table are in canonical form: keys rising, no entry equal to what an unlisted key reads as. -/
structure State.Canonical (s : State) : Prop where
  hostMem : Memory.wf s.hostMem = true
  dram : Memory.wf s.dram = true
  slots : mwf dfltSlot s.keys.slots = true

/-- Every bit that is set in `a` is set in `b`. -/
def NoBitCleared {n : Nat} (a b : BitVec n) : Prop := ∀ i, a.getLsbD i = true → b.getLsbD i = true

/-- The fuse array: a bit only goes from 0 to 1, so a word never loses a bit and a thermometer never falls. -/
structure Otp.NoneCleared (a b : Otp) : Prop where
  lcA : NoBitCleared a.lcA b.lcA
  lcB : NoBitCleared a.lcB b.lcB
  lcC : NoBitCleared a.lcC b.lcC
  serial : NoBitCleared a.serial b.serial
  kaDigest : NoBitCleared a.kaDigest b.kaDigest
  ownerDigest : NoBitCleared a.ownerDigest b.ownerDigest
  kill : NoBitCleared a.kill b.kill
  era : a.era ≤ b.era
  evidence : a.evidence ≤ b.evidence
  fwMin : a.fwMin ≤ b.fwMin
  patchMin : a.patchMin ≤ b.patchMin

/-- What every command keeps: the queue, the canonical form of the memories, and the fuses that are set. -/
structure Keeps (s t : State) : Prop where
  pending : t.pending = s.pending
  canonical : s.Canonical → t.Canonical
  fuses : s.otp.NoneCleared t.otp

/-- Nothing changed but what raising a source writes: the fault registers, the recorder's queue, a reset that a source
asks for, FAULT_N, the MSI-X entries and the host memory their messages reach (R585 to R595, R601). -/
def Signals (s t : State) : Prop :=
  t = { s with faults := t.faults, faultPin := t.faultPin, msix := t.msix, hostMem := t.hostMem
               evr := { s.evr with waiting := t.evr.waiting, resetWait := t.evr.resetWait } }

/-- Time moved on to global beat `g` at the earliest, never back, and nothing else of the device changed. -/
def TimeAt (g : Nat) (s t : State) : Prop :=
  t.g = max s.g g ∧ t = { s with g := t.g, evr := { s.evr with opsec := t.evr.opsec, subsec := t.evr.subsec } }

/-- Source `b` of a block is raised where it is enabled (R585). -/
def Raised (blk b : Nat) (s t : State) : Prop :=
  bit32 (s.fault blk).fen b = true → bit32 (t.fault blk).fstat b = true

/-- The host reaches the registers of an instance: the function is present, bring-up is over, and the configuration gives
the instance (R399, R523, R544). -/
def PageOpen (s : State) (i : Nat) : Prop :=
  s.present i = true ∧ s.boot.ready = true ∧ (15 < i → s.fullConfig = true)

/-- Queue `q` of instance `i` is now `x`; every other queue and every other part of the instances is as before. -/
def QueueIs (i q : Nat) (x : Queue) (s t : State) : Prop :=
  t.queue i q = x ∧ (∀ j r, j ≠ i ∨ r ≠ q → t.queue j r = s.queue j r)
    ∧ ∀ j, t.inst j = { s.inst j with queues := (t.inst j).queues }

/-- A descriptor passes checks 2 to 9 and 11 of R22, with the plan of its operation. -/
structure Passes (s : State) (c : Call) (p : Plan) (paired : Bool) : Prop where
  check : crc8 (c.desc.take 62) = leAt c.desc 62 1
  plan : s.plan c = some p
  alone : (isMauOp c.opcode && mauUnpaired c.opcode && c.pairFlag) = false
  fields : c.flags < 4 ∧ p.bad = false ∧ s.unusedSet c p = false
  takes : (s.inst c.inst).st ≠ .quiescing ∧ (s.inst c.inst).st ≠ .quiesced
  handles : s.badHandle c p = false
  chains : c.opcode = 0xA9 ∨ ∀ k ∈ p.keys, c.keyHandle k.num ≠ 0 → s.chainOk (hIndex (c.keyHandle k.num)) = true
  rights : s.denied c p = false
  lengths : badLength c p = false
  windows : s.outsideWindows c = false
  pair : paired = (s.pairable c && (c.pairFlag || s.pairForce c.inst))
  resident : s.residentFor c paired = true ∧ (c.pairFlag = true → s.pairable c = true)

/-- Call `k` has completed with a status, an output length and a first output key: it is gone, the other calls are as
before, and its completion waits last in its queue (R365, R367). -/
def Completed (k : Nat) (c : Call) (status out okey : Nat) (s t : State) : Prop :=
  t.call k = none ∧ (∀ j, j ≠ k → t.call j = s.call j)
    ∧ ∃ x, (t.queue c.inst c.queue).ready = (s.queue c.inst c.queue).ready ++ [x] ∧ x.index = c.index
      ∧ x.status = status ∧ x.opcode = c.opcode ∧ x.outBytes = out ∧ x.okey0 = okey

/-- The queue of a call is in DIRECT mode and has room for a further completion, and its instance is in no Function Level
Reset (R367, R372, R386). -/
def Direct (s : State) (c : Call) : Prop :=
  s.batch c.inst c.queue = false ∧ (s.inst c.inst).st ≠ .inFlr ∧ s.heldBack c = false

/-- A key-table operation is at its turn: what it names is current and not lost (R443). -/
structure AtTurn (s : State) (k op : Nat) (c : Call) : Prop where
  call : s.call k = some c
  st : c.st = .keyOp
  op : c.opcode = op
  fresh : s.staleAny c = false
  held : s.lostKey c = none
  direct : Direct s c

/-- A mailbox command is at its turn, and nothing turns it away (R379, R380, R383, R551). -/
def Asked (s : State) (i cmd : Nat) : Prop := s.mbxTurn i cmd = true ∧ s.mbxRefusal i = none

/-- The Supervisor's answer of a status and a payload is ready for instance `i`, whose other state is as before, as is that
of every other instance (R380). -/
def Answered (i status : Nat) (payload : Bytes) (s t : State) : Prop :=
  t.inst i = { s.inst i with mbx := { (s.inst i).mbx with taken := true, answer := some (status, payload) } }
    ∧ ∀ j, j ≠ i → t.inst j = s.inst j

/-- A message has landed in MBX_OUT of instance `i`: command, sequence number, status and payload; BUSY is clear and
OUT_VALID set (R379, R380). -/
def Landed (i status : Nat) (payload : Bytes) (s t : State) : Prop :=
  let m := (s.inst i).mbx
  let n := (t.inst i).mbx
  n.busy = false ∧ n.outValid = true ∧ n.answer = none ∧ n.seq = m.inSeq ∧ n.inb = m.inb
    ∧ rdByte n.out 0 = BitVec.ofNat 8 m.cmd ∧ rdByte n.out 1 = BitVec.ofNat 8 m.inSeq ∧ rdByte n.out 4 = BitVec.ofNat 8 status
    ∧ leNat (rdBytes n.out 2 2) = min payload.length 248 ∧ (∀ k, k < min payload.length 248 → rdByte n.out (8 + k) = payload.getD k 0#8)
    ∧ ∀ j, j ≠ i → t.inst j = s.inst j

/-- The device has restarted with a cause: every domain but the always-on domain, the fuses, the flash and DRAM is as after
a reset, and bring-up starts over (R531, R532, R533). -/
structure Restarted (cause : Nat) (s t : State) : Prop where
  cause : t.boot.cause = cause
  ready : t.boot.ready = false
  queueing : t.pending = s.pending
  keys : t.keys = Keys.reset
  calls : t.sch = Sched.reset
  engines : t.engines = []
  clusters : t.clusters = []
  units : t.maus = []
  instances : t.instances = []
  regs : t.regs = []
  faults : t.faults = []
  msix : t.msix = []
  ent : t.ent = Ent.reset
  dge : t.dge = Dge.reset
  dma : t.dma = Dma.reset
  lcc : t.lcc = Lcc.reset
  otp : t.otp = s.otp
  nor : t.nor = s.nor
  dram : t.dram = s.dram
  hostMem : t.hostMem = s.hostMem

/-- The battery-backed roots and nonces survived. -/
def RootsKept (s t : State) : Prop :=
  t.bbram.valid = s.bbram.valid ∧ t.bbram.krOwn = s.bbram.krOwn ∧ t.bbram.krRma = s.bbram.krRma
    ∧ t.bbram.nonces = s.bbram.nonces

/-- The battery-backed memory was zeroised. -/
def RootsErased (t : State) : Prop :=
  t.bbram.valid = false ∧ t.bbram.krOwn = none ∧ t.bbram.krRma = none ∧ t.bbram.nonces = []

/-- An alarm of level `level` has been acted on, the monitor being `m` as its detector left it: it is counted and recorded;
level 2 and above begins or continues an episode, with the alarm in force; levels 3 and 4 reset the device, which level 4
zeroises first, or the reset waits for a transition (R518, R550 to R554, R572). -/
def AlarmActs (b level : Nat) (m : Tmp) (s t : State) : Prop :=
  let episode : Nat := if m.resp = 0 then min 15 (m.evid + 1) else m.evid
  (level < 2 → t.tmp = { m with cntAlarm := m.cntAlarm + 1#32 } ∧ t.alarm = s.alarm ∧ Raised blkTmp b s t
    ∧ Signals { s with tmp := t.tmp } t)
  ∧ (level = 2 → t.alarm = true ∧ t.tmp.resp = max m.resp 2 ∧ t.tmp.holdFrom = s.g ∧ t.tmp.evid = episode
    ∧ t.tmp.cntAlarm = m.cntAlarm + 1#32 ∧ Raised blkTmp b s t ∧ t.otp = s.otp ∧ RootsKept s t)
  ∧ (3 ≤ level → s.lcc.trans = none → Restarted (min level 4) { s with hostMem := t.hostMem } t ∧ t.alarm = false
    ∧ t.tmp.evid = episode ∧ t.tmp.cntAlarm = m.cntAlarm + 1#32 ∧ (level = 3 → RootsKept s t) ∧ (4 ≤ level → RootsErased t))
  ∧ (3 ≤ level → s.lcc.trans ≠ none → t.lcc.waitReset ≠ none ∧ t.alarm = true ∧ t.tmp.resp = max m.resp level ∧ t.otp = s.otp)

/-! ## Engine words -/

/-- An engine may issue a word of this row now: it is issuing, and no check at issue refuses the word (R109, R175). -/
def Engine.MayIssue (e : Engine) (r : Row) : Prop := e.issuing = true ∧ e.refuses r = none

/-- A word that breaks its form is illegal: fetched, it takes ILLEGAL_INSTR, cause 1, and no register of the engine
changes (R88, R109). -/
def IllegalWord (id : EngId) (c : Instr) (s : State) : Prop :=
  let e := s.eng id.idx
  e.issuing = true → e.pc < (e.resident.map (·.codeWords)).getD 0 → ParityPlace.imem e.pc ∉ e.badParity →
  Runs c s fun t => (t.eng id.idx).cause = 1 ∧ (t.eng id.idx).issuing = false ∧ (t.eng id.idx).sregs = e.sregs
    ∧ (t.eng id.idx).pregs = e.pregs ∧ (t.eng id.idx).vregs = e.vregs

/-- The engine but for what issuing any word moves on: program counter, peal ec, loop stack, element index, mode, and what
the timing contract remembers. -/
def Engine.still (e : Engine) : Engine :=
  { e with pc := 0, pealEc := 0, loops := [], eri := 0, mode := .idle, flight := [] }

/-- Only engine `id` changed: it is now `e'`. -/
def OnlyEngine (id : EngId) (s t : State) (e' : Engine) : Prop := t = s.setEng id.idx e'

/-- Bad parity marks change at most in the places of a list: a write there sets correct parity (R579). -/
def MarksMend (places : List ParityPlace) (e e' : Engine) : Prop :=
  (∀ p, p ∈ e'.badParity → p ∈ e.badParity) ∧ ∀ p, p ∉ places → p ∈ e.badParity → p ∈ e'.badParity

/-- The parity places of the vector registers of a list. -/
def vregPlaces (regs : List Loc) : List ParityPlace :=
  regs.filterMap fun l => match l with | .v r => some (.vreg r) | _ => none

/-- A word wrote scalar register `d`, which now holds `v`; a write of s0 is discarded; nothing else of the device
changed (R49). -/
def ScalarTakes (id : EngId) (s : State) (d : Nat) (v : W64) (t : State) : Prop :=
  let e := s.eng id.idx
  ∃ e', OnlyEngine id s t e' ∧ e'.still = Engine.still { e with sregs := e'.sregs, badParity := e'.badParity }
    ∧ MarksMend [.sreg d] e e' ∧ (d ≠ 0 → ParityPlace.sreg d ∉ e'.badParity)
    ∧ ∀ n, e'.sreg n = if n = d ∧ n ≠ 0 then v else e.sreg n

/-- A word wrote predicate register `d`, which now holds `v`; a write of p0 is discarded; nothing else of the device
changed (R52). -/
def PredTakes (id : EngId) (s : State) (d : Nat) (v : PReg) (t : State) : Prop :=
  let e := s.eng id.idx
  ∃ e', OnlyEngine id s t e' ∧ e'.still = Engine.still { e with pregs := e'.pregs, badParity := e'.badParity }
    ∧ MarksMend [.preg d] e e' ∧ (d ≠ 0 → ParityPlace.preg d ∉ e'.badParity)
    ∧ ∀ n, e'.preg n = if n = d ∧ n ≠ 0 then v else e.preg n

/-- Lane `i` of a register or pair. -/
def Engine.laneOf (e : Engine) (w : Nat) (pr : Bool) (r i : Nat) : Nat := lane w (e.wide pr r) i

/-- A word changed vector registers of a list alone, and nothing else of the device; the engine is now as `P` says. -/
def VectorsChange (id : EngId) (s : State) (regs : List Loc) (P : Engine → Prop) (t : State) : Prop :=
  let e := s.eng id.idx
  ∃ e', OnlyEngine id s t e' ∧ e'.still = Engine.still { e with vregs := e'.vregs, badParity := e'.badParity }
    ∧ MarksMend (vregPlaces regs) e e' ∧ (∀ r, Loc.v r ∉ regs → e'.vreg r = e.vreg r) ∧ P e'

/-- The active lanes of the destination took `val`, narrowed to the lane; every other lane and every other vector
register keeps its value, and nothing else of the device changed (R112, R113). -/
def LanesTake (id : EngId) (f : VV) (s : State) (val : Nat → Nat) (t : State) : Prop :=
  let e := s.eng id.idx
  let w := widthOf f.w
  VectorsChange id s (formRegs f.pr f.vd.toNat) (fun e' =>
    ∀ i, i < countOf w f.pr → e'.laneOf w f.pr f.vd.toNat i =
      if e.active w f.pr f.pm i then val i % 2 ^ w else e.laneOf w f.pr f.vd.toNat i) t

/-- `r` is the Montgomery product of `a` and `b` modulo `q` at width `w` (R134). -/
def IsMont (w q a b r : Nat) : Prop := r < q ∧ r * 2 ^ w % q = a * b % q

/-- A scalar load of `n` bytes that no check refuses puts them, zero-extended, into sd: from DMEM with the rest of the
device unchanged, or from CSM as the engine's cluster holds it in this beat, in which the loads also let the stores of
earlier beats land (R119, R179). -/
def ScalarLoads (c : Instr) (id : EngId) (f : SI) (n : Nat) (s : State) : Prop :=
  let e := s.eng id.idx
  let a := siAddr f e
  e.MayIssue (loadRow f n e) → e.denied id.en.toNat a n n false = none →
    (inDmem a n = true → e.dmemBad a n = false →
      Runs c s (ScalarTakes id s f.sd.toNat (BitVec.ofNat 64 (leNat (rdBytes e.dmem a n)))))
    ∧ (inDmem a n = false → s.csmFails id.idx (a - 0x100000) n (fun _ => true) = false →
      let r := s.csmLoad id.idx (a - 0x100000) n
      Runs c s (ScalarTakes id r.2 f.sd.toNat (BitVec.ofNat 64 (leNat r.1))))

/-- A scalar store of `n` bytes that no check refuses: the bytes from the address on are the low bytes of s[sb], every
other byte of DMEM keeps its value, and nothing else changes; or, in CSM, exactly these bytes wait for the end of the
beat and no byte of CSM has changed yet (R119, R179). -/
def ScalarStores (c : Instr) (id : EngId) (f : SI) (n : Nat) (s : State) : Prop :=
  let e := s.eng id.idx
  let a := siAddr f e
  let v := (e.sreg f.sb.toNat).toNat
  e.MayIssue (storeRow f e) → e.denied id.en.toNat a n n true = none →
    (inDmem a n = true → Runs c s fun t => ∃ e', OnlyEngine id s t e'
      ∧ e'.still = Engine.still { e with dmem := e'.dmem, badParity := e'.badParity }
      ∧ ∀ x, rdByte e'.dmem x =
          if a ≤ x ∧ x < a + n then BitVec.ofNat 8 (v / 256 ^ (x - a)) else rdByte e.dmem x)
    ∧ (inDmem a n = false → Runs c s fun t =>
        (t.eng id.idx).still = e.still
        ∧ (t.cl (id.idx / 32)).csm = (s.cl (id.idx / 32)).csm
        ∧ (t.cl (id.idx / 32)).csmPend = (s.cl (id.idx / 32)).csmPend ++ ((List.range n).map fun j =>
            ({ beat := e.localBeat, addr := a - 0x100000 + j, val := BitVec.ofNat 8 (v / 256 ^ j) } : CsmStore))
        ∧ (∀ j, j ≠ id.idx → t.eng j = s.eng j) ∧ (∀ j, j ≠ id.idx / 32 → t.cl j = s.cl j)
        ∧ t.hostMem = s.hostMem ∧ t.dram = s.dram)

/-- The word at the end of no loop: it is not the end word of the top loop entry. -/
def NotLoopEnd (e : Engine) : Prop := ∀ x ∈ e.loops.head?, x.last ≠ e.pc

/-! ## Score library -/

/-- Engine `id` runs an unscrubbed peal `p` of call `c`. -/
structure Serving (id : EngId) (s : State) (p : Peal) (c : Call) : Prop where
  peal : (s.eng id.idx).peal = some p
  call : s.call p.call = some c
  run : (s.eng id.idx).mode = .run
  open_ : p.scrubbed = false
  good : s.kldBad id.idx p.call = false

/-- A score has done its work on engine `id`: it has issued END and left a result word with ACCEPT, STATUS and OUT_LEN at
RES_OFF of its work extent; other engines, the key table and the calls are as they were (R222). -/
def ScoreEnds (id : EngId) (s : State) (p : Peal) (accept status len : Nat) (t : State) : Prop :=
  (t.eng id.idx).mode = .ended ∧ (t.eng id.idx).issuing = false ∧ (∀ j, j ≠ id.idx → t.eng j = s.eng j)
  ∧ t.keys = s.keys ∧ t.sch = s.sch ∧ t.dram = s.dram ∧ t.maus = s.maus
  ∧ ∀ r, p.var.work = some r → ∀ k, k < 8 →
      rdByte (t.cl (id.idx / 32)).csm (extAddr r (id.idx % 32) p.frame (p.var.resOff + k)) = (resultBytes len status accept).getD k 0#8

/-- The command runs a score to its end: in a chain, in the accepting attempt, which is never the main peal (R227). -/
def Accepts (i : Instr) (id : EngId) (s : State) (p : Peal) (c : Call) (tries : LibIn → Nat) (status len : Nat) : Prop :=
  (p.var.chain = true → max 1 (tries (s.libIn id.idx c p.call)) ≤ c.attempt) → Runs i s (ScoreEnds id s p 1 status len)

end Sys2Proof.Machine
end

