-- ==== Sys2Proof/Certificates/Slice0/Obligations.lean ====
section
/-!
DEFINITION. The statements for the provers.
-/
open Sys2Proof Sys2Proof.Machine

/-! ## Steps -/

/-- A step with a command at the front of the queue carries out that command on the state without it. -/
def Obligations.StepRunsFront : Prop :=
  ∀ (c : Instr) (rest : List Instr) (s : State), step { s with pending := c :: rest } = exec c { s with pending := rest }

/-- With an empty queue one global beat passes (DESIGN CHOICE, log entry 1): G rises by 1, every sequencer of a MAU carries
out one microword in each of its mc, and where none runs only G and the operating seconds counter move. What one mc does: the
microword chooses the next microaddress, a call pushes and a return pops, and a full or empty stack, a reserved SEQ or a
microaddress from 0x1400 on raises MAU_FAULT (R331 to R333; the match registers stand before the ROM). -/
def Obligations.IdleStepIsOneBeat : Prop :=
  ∀ s : State,
    (s.pending = [] → step s = .next ((s.microRun (mcOf s.g)).goTo (s.g + 1)) ∧ ∃ t, step s = .next t ∧ t.g = s.g + 1
      ∧ ((∀ u, u < 32 → (s.mau u).uon = false) →
          t.evr.opsec * beatsPerSec + t.evr.subsec = s.evr.opsec * beatsPerSec + s.evr.subsec + 1
          ∧ t = { s with g := t.g, evr := { s.evr with opsec := t.evr.opsec, subsec := t.evr.subsec } }))
    ∧ ∀ u, (s.mau u).uon = true →
      let m := s.mau u
      let n := (s.microStep u).mau u
      let faults : Prop := Raised (blkMau + u) 0 s (s.microStep u)
      (0x1400 ≤ m.uaddr → faults)
      ∧ (∀ k, k < 16 → m.uaddr < 0x1000 → bit32 (s.reg (0x400040 + 0x1000 * u + 4 * k)) 31 = true →
          fld (s.reg (0x400040 + 0x1000 * u + 4 * k)) 16 12 = m.uaddr →
          (∀ j, j < k → bit32 (s.reg (0x400040 + 0x1000 * u + 4 * j)) 31 = false
            ∨ fld (s.reg (0x400040 + 0x1000 * u + 4 * j)) 16 12 ≠ m.uaddr) →
          s.microFetch u m.uaddr
            = some (mget (fun _ => 0#160) m.patch (fld (s.reg (0x400040 + 0x1000 * u + 4 * k)) 0 10)))
      ∧ ∀ w, s.microFetch u m.uaddr = some w → m.abortReq = false →
        let goes (a : Nat) (st : List Nat) : Prop := n.uon = true ∧ n.uaddr = a ∧ n.stack = st ∧ ∀ v, v ≠ u → (s.microStep u).mau v = s.mau v
        let next := m.uaddr + 1
        (uSeq w = 0 → goes next m.stack)
        ∧ (uSeq w = 1 → goes (uNext w) m.stack)
        ∧ (uSeq w = 2 → uCond w = 0 → goes (uNext w) m.stack)
        ∧ (∀ k, k < 4 → uSeq w = 2 → uCond w = k + 1 → goes (if m.loop k = 0 then uNext w else next) m.stack)
        ∧ (uSeq w = 3 → m.stack.length < 8 → goes (uNext w) (next :: m.stack))
        ∧ (uSeq w = 3 → 8 ≤ m.stack.length → faults)
        ∧ (∀ a rest, uSeq w = 4 → m.stack = a :: rest → goes a rest)
        ∧ (uSeq w = 4 → m.stack = [] → faults)
        ∧ (∀ x, uSeq w = 5 → m.loop (uCnt w) = x + 1 → goes (if x = 0 then next else uNext w) m.stack)
        ∧ (uSeq w = 6 → n = { m with uon := false })
        ∧ (uSeq w = 7 → faults)

/-! ## Scalar words -/

/-- The scalar arithmetic words complete with sd at the value of R118's table, wrapping modulo 2^64, and change nothing
else; "b" is s[sb] in the register form and imm32 sign-extended in the immediate form. -/
def Obligations.ScalarArithmetic : Prop :=
  ∀ (id : EngId) (s : State),
    let e := s.eng id.idx
    (∀ f : SForm, e.MayIssue (scalarRow f 1) →
      let a := sformA e f
      let b := sformB e f
      ∀ p ∈ [(Instr.add id f, a + b), (.and id f, a &&& b), (.or id f, a ||| b), (.xor id f, a ^^^ b),
        (.sll id f, a <<< (b.toNat % 64)), (.srl id f, a >>> (b.toNat % 64)), (.sra id f, a.sshiftRight (b.toNat % 64))],
        Runs p.1 s (ScalarTakes id s (sformDst f) p.2))
    ∧ (∀ f : SR,
      let a := e.sreg f.sa.toNat
      let b := e.sreg f.sb.toNat
      (e.MayIssue (scalarRow (.sr f) 1) →
        ∀ p ∈ [(Instr.sub id f, a - b), (.sltu id f, if a.toNat < b.toNat then 1#64 else 0#64),
          (.slt id f, if a.toInt < b.toInt then 1#64 else 0#64)],
          Runs p.1 s (ScalarTakes id s f.sd.toNat p.2))
      ∧ (e.MayIssue (scalarRow (.sr f) 3) →
        ∀ p ∈ [(Instr.mul id f, a * b), (.mulhu id f, BitVec.ofNat 64 (a.toNat * b.toNat / 2 ^ 64))],
          Runs p.1 s (ScalarTakes id s f.sd.toNat p.2)))
    ∧ (∀ f : SI,
      (e.MayIssue { legal := f.sa == 0#5 && f.sb == 0#5 && f.zero == 0#5, writes := [(.s f.sd.toNat, 1)] } →
        Runs (.movi id f) s (ScalarTakes id s f.sd.toNat (f.imm.signExtend 64)))
      ∧ (e.MayIssue (scalarRow (.si f) 1) →
        Runs (.movhi id f) s (ScalarTakes id s f.sd.toNat (f.imm ++ (e.sreg f.sa.toNat).setWidth 32)))
      ∧ (f.sb ≠ 0#5 → ∀ c ∈ [Instr.add id (.si f), .and id (.si f), .or id (.si f), .xor id (.si f), .sll id (.si f),
        .srl id (.si f), .sra id (.si f), .movi id f, .movhi id f], IllegalWord id c s)
      ∧ (f.sa ≠ 0#5 → IllegalWord id (.movi id f) s))

/-- The scalar loads and stores complete as above for 1, 2, 4 and 8 bytes (R119). -/
def Obligations.ScalarMemory : Prop :=
  ∀ (id : EngId) (f : SI) (s : State),
    ScalarLoads (.ldb id f) id f 1 s ∧ ScalarLoads (.ldh id f) id f 2 s ∧ ScalarLoads (.ldw id f) id f 4 s
    ∧ ScalarLoads (.ldd id f) id f 8 s ∧ ScalarStores (.stb id f) id f 1 s ∧ ScalarStores (.sth id f) id f 2 s
    ∧ ScalarStores (.stw id f) id f 4 s ∧ ScalarStores (.std id f) id f 8 s

/-- MFC puts a listed control register into sd; MTC of VL sets VL to the value, at most 512, and changes nothing else
(R53, R54, R120). -/
def Obligations.ControlRegisters : Prop :=
  ∀ (id : EngId) (f : SI) (s : State),
    let e := s.eng id.idx
    (e.issuing = true → f.zero = 0#5 →
      ∀ p ∈ [(0, id.en.setWidth 64), (1, id.cl.setWidth 64), (2, BitVec.ofNat 64 e.vl), (3, BitVec.ofNat 64 e.pealEc),
        (4, BitVec.ofNat 64 e.callBase), (5, BitVec.ofNat 64 e.outBase), (6, if e.fresh then 1#64 else 0#64)],
        f.imm = BitVec.ofNat 32 p.1 →
        e.MayIssue { legal := true, reads := if p.1 = 2 then [.vl] else [], writes := [(.s f.sd.toNat, 1)] } →
        Runs (.mfc id f) s (ScalarTakes id s f.sd.toNat p.2))
    ∧ (f.zero = 0#5 → f.imm = 2#32 →
      e.MayIssue { legal := true, reads := [.s f.sa.toNat], writes := [(.vl, 1)] } →
      Runs (.mtc id f) s fun t => ∃ e', OnlyEngine id s t e'
        ∧ e'.still = Engine.still { e with vl := min (e.sreg f.sa.toNat).toNat 512 })

/-! ## Control words -/

/-- The control words complete, away from a loop end, with the program counter, the peal ec and the stacks that R121 to
R126 give, and every register and memory unchanged. -/
def Obligations.ControlFlow : Prop :=
  ∀ (id : EngId) (f : CF) (s : State),
    let e := s.eng id.idx
    let done (c : Instr) (pc ec : Nat) (loops : List LoopEntry) (rets : List Nat) : Prop :=
      Runs c s fun t => ∃ e', OnlyEngine id s t e' ∧ e'.pc = pc ∧ e'.pealEc = ec ∧ e'.loops = loops
        ∧ e'.still = Engine.still { e with rets := rets }
    NotLoopEnd e → f.zero = 0#20 →
    (f.t = 0#12 → f.n ≠ 0#20 → e.MayIssue { legal := true, interval := f.n.toNat } →
      done (.nopn id f) (e.pc + 1) (e.pealEc + f.n.toNat) e.loops e.rets)
    ∧ (∀ p, e.peal = some p → f.t = 0#12 → f.n.toNat ≤ 65535 → e.pealEc < 32 * f.n.toNat → f.n.toNat ≤ p.len - 2 →
      e.MayIssue { legal := true, interval := 32 * f.n.toNat - e.pealEc } →
      done (.waitb id f) (e.pc + 1) (32 * f.n.toNat) e.loops e.rets)
    ∧ (f.n = 0#20 → e.MayIssue { legal := true, target := some f.t.toNat } →
      done (.jmp id f) f.t.toNat (e.pealEc + 1) e.loops e.rets
      ∧ (e.rets.length < 4 → done (.callSub id f) f.t.toNat (e.pealEc + 1) e.loops ((e.pc + 1) :: e.rets)))
    ∧ (∀ r rs, f.t = 0#12 → f.n = 0#20 → e.rets = r :: rs → e.MayIssue { legal := true, target := some r } →
      done (.ret id f) r (e.pealEc + 1) e.loops rs)
    ∧ (f.n ≠ 0#20 → e.pc < f.t.toNat → e.loops.length < 4 →
      e.MayIssue { legal := true, push := some { first := e.pc + 1, last := f.t.toNat, count := f.n.toNat } } →
      done (.loop id f) (e.pc + 1) (e.pealEc + 1)
        ({ first := e.pc + 1, last := f.t.toNat, count := f.n.toNat } :: e.loops) e.rets)
    ∧ (f.t = 0#12 → f.n = 0#20 → e.MayIssue { legal := true } →
      Runs (.endPeal id f) s fun t => ∃ e', OnlyEngine id s t e' ∧ e'.mode ≠ .run ∧ e'.issuing = false
        ∧ e'.still = Engine.still { e with endSeen := true })

/-- At the end word of the top loop entry the count falls; while it is not 0 the next word is the entry's first, and
else the entry is popped and the word after is judged by the entry below (R123). -/
def Obligations.LoopEnds : Prop :=
  ∀ (id : EngId) (f : CF) (s : State) (x : LoopEntry) (rest : List LoopEntry),
    let e := s.eng id.idx
    e.loops = x :: rest → x.last = e.pc → 0 < x.count → f.zero = 0#20 → f.t = 0#12 → f.n = 1#20 →
    e.MayIssue { legal := true, interval := 1 } →
    Runs (.nopn id f) s fun t => ∃ e', OnlyEngine id s t e'
      ∧ (1 < x.count → e'.pc = x.first ∧ e'.loops = { x with count := x.count - 1 } :: rest)
      ∧ (x.count = 1 → (∀ y ∈ rest.head?, y.last ≠ e.pc) → e'.pc = e.pc + 1 ∧ e'.loops = rest)

/-! ## Exceptions -/

/-- The words of the instruction set decode to the instructions that they encode, and a word decodes only to an instruction that
encodes to it. A word that decodes to none raises: the engine records ILLEGAL_INSTR, leaves its peal (or halts for the debugger),
and its registers and memories stay as they are; DE_ILLEGAL is raised where it is enabled. A fetch at or beyond the code length
raises IMEM_RANGE, cause 2, whatever the word. Sent for a word that decodes, the command for undefined words does nothing (the
model's choice, log entry 24) (R56, R88, R89, R96, R97, R102, R108 to R110). -/
def Obligations.WordsThatRaise : Prop :=
  ∀ (id : EngId) (s : State),
    let e := s.eng id.idx
    (∀ (i : Instr) (w : BitVec 64), encodeWord i = some (id, w) ↔ decodeWord id w = some i)
    ∧ (∀ w : BitVec 64, decodeWord id w ≠ none → e.pc < (e.resident.map (·.codeWords)).getD 0 →
      Runs (.undefinedInstructionWord id w) s fun t => t = s)
    ∧ (e.issuing = true → (∀ w : BitVec 64, decodeWord id w = none →
      e.pc < (e.resident.map (·.codeWords)).getD 0 → ParityPlace.imem e.pc ∉ e.badParity →
      Runs (.undefinedInstructionWord id w) s fun t =>
        (t.eng id.idx).cause = 1 ∧ (t.eng id.idx).eri = 0 ∧ (t.eng id.idx).pc = e.pc
        ∧ (t.eng id.idx).mode = (if s.haltsOnExc id.idx || e.mode == .stepping then .halted else .left)
        ∧ (t.eng id.idx).issuing = false
        ∧ (t.eng id.idx).sregs = e.sregs ∧ (t.eng id.idx).vregs = e.vregs ∧ (t.eng id.idx).pregs = e.pregs
        ∧ (t.eng id.idx).dmem = e.dmem ∧ (t.eng id.idx).kcu = e.kcu
        ∧ (∀ j, j ≠ id.idx → t.eng j = s.eng j) ∧ t.clusters = s.clusters ∧ t.keys = s.keys ∧ t.dram = s.dram
        ∧ (bit32 (s.fault (id.idx / 32)).fen 8 = true → bit32 (t.fault (id.idx / 32)).fstat 8 = true)
        ∧ (bit32 (s.fault (id.idx / 32)).fen 8 = false → t.faults = s.faults))
    ∧ ∀ f : SForm, (e.resident.map (·.codeWords)).getD 0 ≤ e.pc → Runs (.add id f) s fun t =>
        (t.eng id.idx).cause = 2 ∧ (t.eng id.idx).sregs = e.sregs ∧ (t.eng id.idx).issuing = false)

/-- VL, the predicates and the vector registers of an engine survive a word that it refuses, and so does every other
register: a refused word has no effect but the exception (R109). -/
def Obligations.RefusedWordHasNoEffect : Prop :=
  ∀ (id : EngId) (row : Engine → Row) (eff : State → Eff) (s : State) (c : Cause) (src : Nat),
    (s.eng id.idx).issuing = true → (s.eng id.idx).refuses (row (s.eng id.idx)) = some (c, src) →
    ∃ t, issueWord id row eff s = .next t ∧ (t.eng id.idx).cause = c.code
      ∧ (t.eng id.idx).pc = (s.eng id.idx).pc ∧ (t.eng id.idx).mode ≠ .run
      ∧ Engine.still { t.eng id.idx with cause := 0, leave := none, needReload := false }
        = Engine.still { s.eng id.idx with cause := 0, leave := none, needReload := false }
      ∧ (∀ j, j ≠ id.idx → t.eng j = s.eng j) ∧ t.clusters = s.clusters ∧ t.dram = s.dram

/-! ## Predicates and compares -/

/-- The predicate words complete with the values of R127's table; a write of p0 is discarded. -/
def Obligations.Predicates : Prop :=
  ∀ (id : EngId) (f : VP) (s : State),
    let e := s.eng id.idx
    let a := e.preg f.pa.toNat
    let b := e.preg f.pb.toNat
    (e.MayIssue (predRow f (f.sd == 0#5 && f.sa == 0#5) [.p f.pa.toNat, .p f.pb.toNat]) →
      ∀ p ∈ [(Instr.pand id f, a &&& b), (.por id f, a ||| b), (.pxor id f, a ^^^ b), (.pandn id f, a &&& ~~~b)],
        Runs p.1 s (PredTakes id s f.pd.toNat p.2))
    ∧ (e.MayIssue (predRow f (f.pb == 0#3 && f.sd == 0#5 && f.sa == 0#5) [.p f.pa.toNat]) →
      Runs (.pnot id f) s (PredTakes id s f.pd.toNat (~~~a)))
    ∧ (e.MayIssue (predRow f (f.pa == 0#3 && f.pb == 0#3 && f.sd == 0#5) [.s f.sa.toNat]) →
      ∃ v : PReg, Runs (.psetn id f) s (PredTakes id s f.pd.toNat v)
        ∧ ∀ i, i < 512 → v.getLsbD i = decide (i < (e.sreg f.sa.toNat).toNat))
    ∧ (e.MayIssue { legal := f.pd == 0#3 && f.pb == 0#3 && f.sa == 0#5 && f.zero == 0#33, vec := true
                    reads := [.p f.pa.toNat], writes := [(.s f.sd.toNat, 2)] } →
      Runs (.pcnt id f) s (ScalarTakes id s f.sd.toNat
        (BitVec.ofNat 64 ((List.range 512).countP fun i => a.getLsbD i))))
    ∧ (f.sd ≠ 0#5 ∨ f.sa ≠ 0#5 → ∀ c ∈ [Instr.pand id f, .por id f, .pxor id f, .pandn id f, .pnot id f], IllegalWord id c s)
    ∧ (f.pb ≠ 0#3 → IllegalWord id (.pnot id f) s ∧ IllegalWord id (.psetn id f) s ∧ IllegalWord id (.pcnt id f) s)
    ∧ (f.pa ≠ 0#3 ∨ f.sd ≠ 0#5 → IllegalWord id (.psetn id f) s) ∧ (f.pd ≠ 0#3 ∨ f.sa ≠ 0#5 → IllegalWord id (.pcnt id f) s)

/-- The compares complete: an active bit takes the outcome, a bit at or above the element count is 0, and every other bit
of the predicate keeps its value (R128). -/
def Obligations.VectorCompares : Prop :=
  ∀ (id : EngId) (f : VV) (s : State),
    let e := s.eng id.idx
    let w := widthOf f.w
    let a := elem f f.va e
    let b := elem f f.vb e
    (8 ≤ f.vd.toNat → ∀ c ∈ [Instr.vcmpeq id f, .vcmpltu id f, .vcmplts id f], IllegalWord id c s)
    ∧ (e.MayIssue { legal := vvFree f && decide (f.vd.toNat < 8) && pairOk f.pr f.w [f.va, f.vb],
                    vec := true,
                    reads := [.vl, .p f.pm.toNat] ++ formRegs f.pr f.va.toNat ++ formRegs f.pr f.vb.toNat,
                    writes := [(.p f.vd.toNat, if f.pr then 18 else 10)], holds := [(.vxu, if f.pr then 16 else 8)] } →
    ∀ p ∈ [(Instr.vcmpeq id f, fun i => decide (a i = b i)), (.vcmpltu id f, fun i => decide (a i < b i)),
      (.vcmplts id f, fun i => decide (toSigned w (a i) < toSigned w (b i)))],
      ∃ v : PReg, Runs p.1 s (PredTakes id s f.vd.toNat v)
        ∧ ∀ i, i < 512 → v.getLsbD i = if countOf w f.pr ≤ i then false
            else if e.active w f.pr f.pm i then p.2 i else (e.preg f.vd.toNat).getLsbD i)

/-! ## Vector words -/

/-- The vector integer words complete with the lane values of R129's table, narrowed to the lane width. -/
def Obligations.VectorInteger : Prop :=
  ∀ (id : EngId) (f : VV) (s : State),
    let e := s.eng id.idx
    let w := widthOf f.w
    let a := elem f f.va e
    let b := elem f f.vb e
    let n := f.imm.toNat
    let legal2 := vvOnly f [.vd, .va, .vb, .pm]
    (e.MayIssue (vxuRow f legal2 [f.va, f.vb] [f.vd] 8 10) →
      ∀ p ∈ [(Instr.vadd id f, fun i => a i + b i), (.vsub id f, fun i => a i + (2 ^ w - b i)),
        (.vand id f, fun i => a i &&& b i), (.vor id f, fun i => a i ||| b i), (.vxor id f, fun i => a i ^^^ b i),
        (.vandn id f, fun i => a i &&& (2 ^ w - 1 - b i)),
        (.vsllv id f, fun i => if w ≤ b i then 0 else a i * 2 ^ b i), (.vsrlv id f, fun i => a i / 2 ^ b i)],
        Runs p.1 s (LanesTake id f s p.2))
    ∧ (e.MayIssue (vxuRow f legal2 [f.va, f.vb] [f.vd] 8 12) →
      ∀ p ∈ [(Instr.vmullo id f, fun i => a i * b i), (.vmulhu id f, fun i => a i * b i / 2 ^ w),
        (.vmulhs id f, fun i => ofInt w (toSigned w (a i) * toSigned w (b i) / ((2 ^ w : Nat) : Int)))],
        Runs p.1 s (LanesTake id f s p.2))
    ∧ (e.MayIssue (vxuRow f (vvOnly f [.vd, .va, .imm, .pm]) [f.va] [f.vd] 8 10) →
      ∀ p ∈ [(Instr.vslli id f, fun i => if w ≤ n then 0 else a i * 2 ^ n), (.vsrli id f, fun i => a i / 2 ^ n),
        (.vsrai id f, fun i => ofInt w (toSigned w (a i) / ((2 ^ min n w : Nat) : Int)))],
        Runs p.1 s (LanesTake id f s p.2))

/-- Broadcast, move, index, extract, permute and select complete with their values (R129, R162). -/
def Obligations.VectorMoves : Prop :=
  ∀ (id : EngId) (f : VV) (s : State),
    let e := s.eng id.idx
    let w := widthOf f.w
    let cnt := countOf w f.pr
    let a := elem f f.va e
    let b := elem f f.vb e
    let ssFirst (r : Row) : Row := { r with reads := .s f.ss.toNat :: r.reads }
    (e.MayIssue (ssFirst (vxuRow f (vvOnly f [.vd, .ss, .pm]) [] [f.vd] 8 10)) →
      Runs (.vbcast id f) s (LanesTake id f s fun _ => (e.sreg f.ss.toNat).toNat))
    ∧ (e.MayIssue (vxuRow f (vvOnly f [.vd, .va, .pm]) [f.va] [f.vd] 8 10) → Runs (.vmov id f) s (LanesTake id f s a))
    ∧ (e.MayIssue (vxuRow f (vvOnly f [.vd, .pm]) [] [f.vd] 8 10) → Runs (.viota id f) s (LanesTake id f s fun i => i))
    ∧ (e.MayIssue { vxuRow f (vvOnly f [.va, .ss, .imm, .pm]) [f.va] [] 8 10 with
                    writes := [(.s f.ss.toNat, formLat f.pr 8 10)] } →
      Runs (.vext id f) s (ScalarTakes id s f.ss.toNat (BitVec.ofNat 64 (a (f.imm.toNat % cnt)))))
    ∧ (e.MayIssue (vxuRow f (vvOnly f [.vd, .va, .vb, .pm]) [f.va, f.vb] [f.vd] 16 20) →
      Runs (.vperm id f) s (LanesTake id f s fun i => a (b i % cnt)))
    ∧ (e.MayIssue (vxuRow f (vvFree f) [f.va, f.vb, f.vc] [f.vd] 8 12) →
      Runs (.vcsel id f) s (LanesTake id f s fun i => if elem f f.vc e i = 0 then b i else a i))

/-! ## Modular arithmetic -/

/-- The modular words complete with residues of the selected modulus, the Montgomery forms with the product that times
2^w is the plain product (R131 to R134). -/
def Obligations.ModularArithmetic : Prop :=
  ∀ (id : EngId) (f : VV) (s : State) (q : Nat),
    let e := s.eng id.idx
    let w := widthOf f.w
    let a := elem f f.va e
    let b := elem f f.vb e
    e.modulus f.ms f.w = some q → q % 2 = 1 → 1 < q → q < 2 ^ w →
    (e.MayIssue (modRow f e (vvFree f) [f.va, f.vb] [f.vd] 8 12) →
      (∀ p ∈ [(Instr.vmadd id f, fun i => (a i + b i) % q), (.vmsub id f, fun i => (a i + (q - b i % q)) % q),
        (.vmmulb id f, fun i => a i * b i % q)], Runs p.1 s (LanesTake id f s p.2))
      ∧ ∃ m : Nat → Nat, (∀ i, IsMont w q (a i) (b i) (m i)) ∧ Runs (.vmmulm id f) s (LanesTake id f s m))
    ∧ (let r := modRow f e (vvFree f) [f.va] [f.vd] 8 12
      e.MayIssue { r with reads := .s f.ss.toNat :: r.reads } →
      ∃ m : Nat → Nat, (∀ i, IsMont w q (a i) ((e.sreg f.ss.toNat).toNat % 2 ^ w) (m i))
        ∧ Runs (.vmmulms id f) s (LanesTake id f s m))
    ∧ (e.MayIssue (modRow f e (vvFree f) [f.va] [f.vd] 8 12) →
      ∀ p ∈ [(Instr.vmneg id f, fun i => (q - a i % q) % q), (.vmred id f, fun i => a i % q),
        (.vmcent id f, fun i => if (q - 1) / 2 < a i % q then 2 ^ w - (q - a i % q) else a i % q),
        (.vmlift id f, fun i => if a i < 2 ^ (w - 1) then a i % q else (q - (2 ^ w - a i) % q) % q)],
        Runs p.1 s (LanesTake id f s p.2))

/-- Compression and decompression complete with the rounded quotients of R140. -/
def Obligations.Compression : Prop :=
  ∀ (id : EngId) (f : VV) (s : State) (q : Nat),
    let e := s.eng id.idx
    let d := f.imm.toNat
    let a := elem f f.va e
    e.modulus f.ms f.w = some q → 1 < q → 1 ≤ d → d < 32 → d < widthOf f.w →
    e.MayIssue (modRow f e (vvFree f) [f.va] [f.vd] 8 12) →
    Runs (.vcompr id f) s (LanesTake id f s fun i => (2 * (a i % q * 2 ^ d) + q) / (2 * q) % 2 ^ d)
    ∧ Runs (.vdecompr id f) s (LanesTake id f s fun i => (2 * (q * (a i % 2 ^ d)) + 2 ^ d) / (2 * 2 ^ d))

/-- VMODSET and VGFSET load the slot that MS names from the 64-byte descriptor, whose fields R132 and R138 accept, and
change nothing else. -/
def Obligations.SlotSetup : Prop :=
  ∀ (id : EngId) (f : VV) (s : State),
    let e := s.eng id.idx
    let a := descAddr f e
    let d := rdBytes e.dmem a 64
    let n := f.ms.toNat - 4
    let row (l : Loc) : Row := { legal := true, vec := true, reads := [.s f.ss.toNat], writes := [(l, 20)], holds := [(.lsp, 1)] }
    vvFree f = true → f.pr = false → 4 ≤ f.ms.toNat →
    a % 64 = 0 → a + 64 ≤ 0x20000 → e.dmemBad a 64 = false →
    (∀ (q : Nat) (c : Nat), leAt d 0 8 = q → leAt d 8 1 = c → q % 2 = 1 → 3 ≤ q → 1 ≤ c → c ≤ 3 →
      q < 2 ^ (8 * 2 ^ c - 1) → (∀ x ∈ d.drop 9, x = 0#8) → e.MayIssue (row (.q n)) →
      Runs (.vmodset id f) s fun t => ∃ e', OnlyEngine id s t e'
        ∧ e'.still = Engine.still { e with qslots := e'.qslots }
        ∧ ∀ k, e'.qslot k = if k = n then some { q := q, w := c } else e.qslot k)
    ∧ (∀ p : Nat, leAt d 0 4 = p → 2 ≤ polyDeg p 32 → polyDeg p 32 ≤ 16 → (∀ x ∈ d.drop 4, x = 0#8) →
      e.MayIssue (row (.g n)) →
      Runs (.vgfset id f) s fun t => ∃ e', OnlyEngine id s t e'
        ∧ e'.still = Engine.still { e with gslots := e'.gslots }
        ∧ ∀ k, e'.gslot k = if k = n then some p else e.gslot k)

/-- The butterflies inside one register or pair: each running pair (j, j + 2^imm) takes the Cooley-Tukey or the
Gentleman-Sande values, and every other lane keeps its value (R135). -/
def Obligations.Butterflies : Prop :=
  ∀ (id : EngId) (f : VV) (s : State) (q : Nat),
    let e := s.eng id.idx
    let w := widthOf f.w
    let l := bfDist f
    let x := elem f f.va e
    let z := elem f f.vb e
    let lanes (lo hi : Nat → Nat) : State → Prop :=
      VectorsChange id s (formRegs f.pr f.vd.toNat) fun e' =>
        (∀ j, bfRuns f e j = true → e'.laneOf w f.pr f.vd.toNat j = lo j ∧ e'.laneOf w f.pr f.vd.toNat (j + l) = hi j)
        ∧ ∀ i, i < countOf w f.pr → bfRuns f e i = false → (∀ j, i = j + l → bfRuns f e j = false) →
          e'.laneOf w f.pr f.vd.toNat i = e.laneOf w f.pr f.vd.toNat i
    e.modulus f.ms f.w = some q → q % 2 = 1 → 1 < q → q < 2 ^ w →
    e.MayIssue (modRow f e (vvFree f && decide (f.imm.toNat < 16)
      && decide (2 * bfDist f ≤ countOf (widthOf f.w) f.pr)) [f.va, f.vb] [f.vd] 8 12) →
    (∃ m : Nat → Nat, (∀ j, IsMont w q (x (j + l)) (z j) (m j))
      ∧ Runs (.vbfct id f) s (lanes (fun j => (x j + m j) % q) fun j => (x j + (q - m j)) % q))
    ∧ ∃ m : Nat → Nat, (∀ j, IsMont w q ((x j + (q - x (j + l) % q)) % q) (z j) (m j))
      ∧ Runs (.vbfgs id f) s (lanes (fun j => (x j + x (j + l)) % q) m)

/-- The butterflies across two registers or pairs, and the product modulo X^2 - gamma (R136, R137). -/
def Obligations.CrossButterflies : Prop :=
  ∀ (id : EngId) (f : VV) (s : State) (q : Nat),
    let e := s.eng id.idx
    let w := widthOf f.w
    let d := elem f f.vd e
    let a := elem f f.va e
    let b := elem f f.vb e
    let act (i : Nat) : Prop := e.active w f.pr f.pm i = true
    let pairs (lo hi : Nat → Nat) : State → Prop :=
      VectorsChange id s (formRegs f.pr f.vd.toNat ++ formRegs f.pr f.va.toNat) fun e' =>
        ∀ i, i < countOf w f.pr →
          (act i → e'.laneOf w f.pr f.vd.toNat i = lo i ∧ e'.laneOf w f.pr f.va.toNat i = hi i)
          ∧ (¬ act i → e'.laneOf w f.pr f.vd.toNat i = d i ∧ e'.laneOf w f.pr f.va.toNat i = a i)
    e.modulus f.ms f.w = some q → q % 2 = 1 → 1 < q → q < 2 ^ w →
    (e.MayIssue (modRow f e (vvFree f && f.vd != f.va) [f.vd, f.va, f.vb] [f.vd, f.va] 8 12) →
      (∃ m : Nat → Nat, (∀ i, IsMont w q (a i) (b i) (m i))
        ∧ Runs (.vbfctx id f) s (pairs (fun i => (d i + m i) % q) fun i => (d i + (q - m i)) % q))
      ∧ ∃ m : Nat → Nat, (∀ i, IsMont w q ((d i + (q - a i % q)) % q) (b i) (m i))
        ∧ Runs (.vbfgsx id f) s (pairs (fun i => (d i + a i) % q) m))
    ∧ (e.MayIssue (modRow f e (vvFree f) [f.va, f.vb, f.vc] [f.vd] 16 20) →
      ∃ p00 p11 g p01 p10 : Nat → Nat,
        (∀ k, IsMont w q (a k) (b k) (p00 k) ∧ IsMont w q (a (k + 1)) (b (k + 1)) (p11 k)
          ∧ IsMont w q (p11 k) (elem f f.vc e k) (g k)
          ∧ IsMont w q (a k) (b (k + 1)) (p01 k) ∧ IsMont w q (a (k + 1)) (b k) (p10 k))
        ∧ Runs (.vbmul id f) s (VectorsChange id s (formRegs f.pr f.vd.toNat) fun e' =>
          ∀ k, k % 2 = 0 → k + 1 < countOf w f.pr →
            if k + 1 < e.limit w f.pr ∧ (e.preg f.pm.toNat).getLsbD k = true then
              e'.laneOf w f.pr f.vd.toNat k = (p00 k + g k) % q
              ∧ e'.laneOf w f.pr f.vd.toNat (k + 1) = (p01 k + p10 k) % q
            else e'.laneOf w f.pr f.vd.toNat k = d k ∧ e'.laneOf w f.pr f.vd.toNat (k + 1) = d (k + 1)))

/-- The binary-field words complete with products in GF(2)[X] modulo the slot's polynomial, and the carry-less products
with the two halves of the product (R138, R139). -/
def Obligations.BinaryField : Prop :=
  ∀ (id : EngId) (f : VV) (s : State),
    let e := s.eng id.idx
    let a := elem f f.va e
    let b := elem f f.vb e
    (∀ p m : Nat, e.field f = some (p, m) → 2 ≤ m →
      (e.MayIssue (gfRow f e (vvFree f) [f.va, f.vb] 8 12) →
        Runs (.vgfmul id f) s (LanesTake id f s fun i => gfMul p m (a i) (b i)))
      ∧ (e.MayIssue (gfRow f e (vvFree f) [f.va] 8 12) →
        Runs (.vgfsqr id f) s (LanesTake id f s fun i => gfMul p m (a i) (a i)))
      ∧ (e.MayIssue (gfRow f e (vvFree f) [f.va] 64 68) →
        ∃ v : Nat → Nat, (∀ i, gfRed p m (a i) 64 = 0 → v i = 0) ∧ (∀ i, v i = gfInv p m (m - 1) (gfRed p m (a i) 64) 1)
          ∧ Runs (.vgfinv id f) s (LanesTake id f s v)))
    ∧ (e.MayIssue (clRow f) →
      Runs (.vclmullo id f) s (LanesTake id f s fun i => clmul (a i) (b i) 64)
      ∧ Runs (.vclmulhi id f) s (LanesTake id f s fun i => clmul (a i) (b i) 64 / 2 ^ 64))

/-- Packing and unpacking move D-bit fields; Power2Round and the ML-DSA split write the high parts to vd and the low
parts, as two's complement, to vc, and the two parts recombine to the residue (R141, R142). -/
def Obligations.PackAndSplit : Prop :=
  ∀ (id : EngId) (f : VV) (s : State),
    let e := s.eng id.idx
    let w := widthOf f.w
    let d := packBits f
    let n := e.limit w f.pr
    let a := elem f f.va e
    (e.MayIssue (vxuRow f (packLegal f) [f.va] [f.vd] 8 12) →
      Runs (.vpack id f) s (VectorsChange id s (formRegs f.pr f.vd.toNat) fun e' =>
        ∀ k, k < (if f.pr then 8192 else 4096) → (e'.wide f.pr f.vd.toNat).getLsbD k =
          (decide (k < d * n) && (a (k / d)).testBit (k % d)))
      ∧ Runs (.vunpack id f) s (VectorsChange id s (formRegs f.pr f.vd.toNat) fun e' =>
        ∀ i, i < countOf w f.pr → e'.laneOf w f.pr f.vd.toNat i =
          if i < n then (e.wide f.pr f.va.toNat).toNat / 2 ^ (i * d) % 2 ^ d else e.laneOf w f.pr f.vd.toNat i))
    ∧ (let r (i : Nat) : Nat := lane 32 (e.wide f.pr f.va.toNat) i % 8380417
      let parts (ok : Nat → Nat → Int → Prop) : State → Prop :=
        VectorsChange id s (formRegs f.pr f.vd.toNat ++ formRegs f.pr f.vc.toNat) fun e' =>
          ∀ i, i < countOf 32 f.pr →
            if e.active 32 f.pr f.pm i then
              ok i (e'.laneOf 32 f.pr f.vd.toNat i) (toSigned 32 (e'.laneOf 32 f.pr f.vc.toNat i))
            else e'.laneOf 32 f.pr f.vd.toNat i = e.laneOf 32 f.pr f.vd.toNat i
              ∧ e'.laneOf 32 f.pr f.vc.toNat i = e.laneOf 32 f.pr f.vc.toNat i
      (e.MayIssue (modRow f e (vvFree f && f.ms == 1#3 && f.w == 2#2 && f.vd != f.vc)
          [f.va] [f.vd, f.vc] 8 12) →
        Runs (.vp2r id f) s (parts fun i hi lo =>
          (hi : Int) * 8192 + lo = r i ∧ -4096 < lo ∧ lo ≤ 4096))
      ∧ (e.MayIssue (modRow f e (vvFree f && f.ms == 1#3 && f.w == 2#2 && f.vd != f.vc
          && decide (f.imm.toNat ≤ 1)) [f.va] [f.vd, f.vc] 8 12) →
        Runs (.vsplit id f) s (parts fun i hi lo =>
          ((hi : Int) * splitBase f + lo - r i) % 8380417 = 0
          ∧ -(splitBase f : Int) ≤ 2 * lo ∧ 2 * lo ≤ splitBase f ∧ hi < (if d = 0 then 44 else 16))))

/-! ## Vector memory -/

/-- VLD and VST of a block that no check refuses: a load writes the bytes of active elements alone, a store changes the
bytes of active elements alone, in DMEM with the rest of the device unchanged; in CSM a load delivers the block of the
cluster's bytes and a store leaves each of its bytes waiting for the end of the beat (R144, R179). -/
def Obligations.VectorBlocks : Prop :=
  ∀ (id : EngId) (f : VM) (s : State),
    let e := s.eng id.idx
    let a := vmBase f e
    let n := if f.pr then 1024 else 512
    let byteAct (k : Nat) : Bool := vmActive f e (k / vmBytes f)
    let took (u : State) (b : Nat → Byte) : State → Prop :=
      VectorsChange id u (formRegs f.pr f.vd.toNat) fun e' =>
        ∀ k, k < n → e'.laneOf 8 f.pr f.vd.toNat k = if byteAct k then (b k).toNat else e.laneOf 8 f.pr f.vd.toNat k
    (e.MayIssue (blockRow f true e) → blockDenied f e id.en.toNat a false = none →
      (inDmem a n = true → blockBad f e a n = false →
        Runs (.vld id f) s (took s fun k => rdByte e.dmem (a + k)))
      ∧ (inDmem a n = false → s.csmFails id.idx (a - 0x100000) n byteAct = false →
        let r := s.csmLoad id.idx (a - 0x100000) n
        Runs (.vld id f) s (took r.2 fun k => r.1.getD k 0#8)))
    ∧ (e.MayIssue (blockRow f false e) → blockDenied f e id.en.toNat a true = none →
      (inDmem a n = true → Runs (.vst id f) s fun t => ∃ e', OnlyEngine id s t e'
        ∧ e'.still = Engine.still { e with dmem := e'.dmem, badParity := e'.badParity }
        ∧ ∀ x, rdByte e'.dmem x =
          if a ≤ x ∧ x < a + n ∧ byteAct (x - a) = true then BitVec.ofNat 8 (e.laneOf 8 f.pr f.vd.toNat (x - a))
          else rdByte e.dmem x)
      ∧ (inDmem a n = false → Runs (.vst id f) s fun t =>
        (t.eng id.idx).still = e.still ∧ (t.cl (id.idx / 32)).csm = (s.cl (id.idx / 32)).csm
        ∧ (t.cl (id.idx / 32)).csmPend = (s.cl (id.idx / 32)).csmPend ++
          (((List.range n).filter byteAct).map fun k =>
            ({ beat := e.localBeat, addr := a - 0x100000 + k
               val := BitVec.ofNat 8 (e.laneOf 8 f.pr f.vd.toNat k) } : CsmStore))
        ∧ (∀ j, j ≠ id.idx → t.eng j = s.eng j) ∧ t.hostMem = s.hostMem ∧ t.dram = s.dram))

/-- VLDFF with `m` elements before the first one that faults, of `n` below the limit: the lanes below m are loaded, pd has
its low m bits set, and VL becomes m where m is short of n; a fault of element 0 is an exception instead (R92, R145). -/
def Obligations.FirstFaultLoad : Prop :=
  ∀ (id : EngId) (f : VM) (s : State) (m : Nat),
    let e := s.eng id.idx
    let w := widthOf f.w
    let a := vmBase f e
    let n := e.limit w f.pr
    let bad (i : Nat) : Prop := e.dmemDenied (a + i * vmBytes f) (vmBytes f) (vmBytes f) false ≠ none
    e.MayIssue { legal := vmZero f && f.nf == 0#2 && f.sc == 0#2 && f.pm == 0#3 && f.pd != 0#3
                   && pairOk f.pr f.w [f.vd]
                 vec := true
                 reads := [.vl, .s f.sa.toNat]
                 writes := [(.vl, formLat f.pr 8 9), (.p f.pd.toNat, formLat f.pr 8 9)]
                   ++ (formRegs f.pr f.vd.toNat).map (fun l => (l, formLat f.pr 8 9))
                 holds := [(.lsp, formOcc f.pr 8)] } →
    (∀ c, 0 < n → e.dmemDenied a (vmBytes f) (vmBytes f) false = some c →
      Runs (.vldff id f) s fun t => (t.eng id.idx).cause = c.code ∧ (t.eng id.idx).issuing = false
        ∧ (t.eng id.idx).vregs = e.vregs ∧ (t.eng id.idx).pregs = e.pregs ∧ (t.eng id.idx).vl = e.vl)
    ∧ (e.dmemBad a (m * vmBytes f) = false → m ≤ n → (∀ i, i < m → ¬ bad i) → (m < n → bad m) → (0 < m ∨ n = 0) →
    Runs (.vldff id f) s fun t => ∃ e', OnlyEngine id s t e'
      ∧ e'.still = Engine.still { e with
          vregs := e'.vregs, pregs := e'.pregs, badParity := e'.badParity, vl := if m < n then m else e.vl }
      ∧ MarksMend (.preg f.pd.toNat :: vregPlaces (formRegs f.pr f.vd.toNat)) e e'
      ∧ (∀ i, i < countOf w f.pr → e'.laneOf w f.pr f.vd.toNat i =
          if i < m then leNat (rdBytes e.dmem (a + i * vmBytes f) (vmBytes f)) else e.laneOf w f.pr f.vd.toNat i)
      ∧ (∀ r, Loc.v r ∉ formRegs f.pr f.vd.toNat → e'.vreg r = e.vreg r)
      ∧ (∀ k, k < 512 → (e'.preg f.pd.toNat).getLsbD k = decide (k < m))
      ∧ ∀ p, p ≠ f.pd.toNat → e'.preg p = e.preg p)

/-- Gathers and structure loads without a faulting element: every active element takes its bytes of DMEM, and every other
lane and register keeps its value (R146, R147). -/
def Obligations.GathersAndStructureLoads : Prop :=
  ∀ (id : EngId) (f : VM) (s : State),
    let e := s.eng id.idx
    let w := widthOf f.w
    let act (i : Nat) : Bool := fromEri e (vmActive f e) i
    (e.MayIssue (gsRow f true e) →
      (∀ i, act i = true → e.dmemDenied (gsAddr f e i) (vmBytes f) (vmBytes f) false = none
        ∧ e.dmemBad (gsAddr f e i) (vmBytes f) = false) →
      Runs (.vgth id f) s (VectorsChange id s (formRegs f.pr f.vd.toNat) fun e' =>
        ∀ i, i < countOf w f.pr → e'.laneOf w f.pr f.vd.toNat i =
          if act i then leNat (rdBytes e.dmem (gsAddr f e i) (vmBytes f)) else e.laneOf w f.pr f.vd.toNat i))
    ∧ (e.MayIssue (structRow f true e) →
      (∀ i, act i = true → structBad f e false i = none
        ∧ e.dmemBad (structAddr f e i 0) (structFields f * vmBytes f) = false) →
      Runs (.vlds id f) s (VectorsChange id s (structRegs f) fun e' =>
        ∀ k, k < structFields f → ∀ i, i < countOf w false → e'.laneOf w false (f.vd.toNat + k) i =
          if act i then leNat (rdBytes e.dmem (structAddr f e i k) (vmBytes f))
          else e.laneOf w false (f.vd.toNat + k) i))

/-- Scatters and structure stores without a faulting element: a byte that no active element covers keeps its value, a byte
covered last by element i holds that element's byte, and only DMEM changes (R146, R147). -/
def Obligations.ScattersAndStructureStores : Prop :=
  ∀ (id : EngId) (f : VM) (s : State),
    let e := s.eng id.idx
    let w := widthOf f.w
    let act (i : Nat) : Bool := fromEri e (vmActive f e) i
    let stored (cnt : Nat) (addr : Nat → Nat) (val : Nat → Bytes) : State → Prop := fun t => ∃ e', OnlyEngine id s t e'
      ∧ e'.still = Engine.still { e with dmem := e'.dmem, badParity := e'.badParity }
      ∧ ∀ x,
        let covers (i : Nat) : Prop := i < cnt ∧ act i = true ∧ addr i ≤ x ∧ x < addr i + (val i).length
        ((∀ i, ¬ covers i) → rdByte e'.dmem x = rdByte e.dmem x)
        ∧ ∀ i, covers i → (∀ j, i < j → ¬ covers j) → rdByte e'.dmem x = (val i).getD (x - addr i) 0#8
    (e.MayIssue (gsRow f false e) →
      (∀ i, act i = true → e.dmemDenied (gsAddr f e i) (vmBytes f) (vmBytes f) true = none) →
      Runs (.vsct id f) s (stored (countOf w f.pr) (gsAddr f e)
        fun i => natLe (vmBytes f) (lane w (e.wide f.pr f.vd.toNat) i)))
    ∧ (e.MayIssue (structRow f false e) → (∀ i, act i = true → structBad f e true i = none) →
      Runs (.vsts id f) s (stored (countOf w false) (fun i => structAddr f e i 0) (structBytes f e)))

/-! ## Share words -/

/-- The share-by-share words complete: share j of an active element takes the value of its own row in R157's table. -/
def Obligations.ShareByShare : Prop :=
  ∀ (id : EngId) (f : VV) (s : State),
    let e := s.eng id.idx
    let w := widthOf f.w
    let a (i j : Nat) : Nat := (shElem f e f.va i).getD j 0
    let b (i j : Nat) : Nat := (shElem f e f.vb i).getD j 0
    let pub := elem f f.vb e
    let take (val : Nat → Nat → Nat) : State → Prop := VectorsChange id s (shGroup f f.vd) fun e' =>
      ∀ j, j < sharesOf (shOrd f) → ∀ i, i < countOf w f.pr →
        e'.laneOf w f.pr (shareReg f.pr f.vd.toNat j) i =
          if e.active w f.pr f.pm i then val i j % 2 ^ w else e.laneOf w f.pr (shareReg f.pr f.vd.toNat j) i
    let row2 (k : Bool) : Row := shRow f (shLegal f [.vd, .va, .vb] [f.vd, f.va, f.vb] [] && k)
      (slotReads f.ms ++ shGroup f f.va ++ shGroup f f.vb) (shGroup f f.vd) (16, 24) (20, 28) (0, 0)
    let rowP (k : Bool) (occ lat : Nat × Nat) : Row := shRow f (shLegal f [.vd, .va, .vb] [f.vd, f.va] [f.vb] && k)
      (slotReads f.ms ++ shGroup f f.va ++ formRegs f.pr f.vb.toNat) (shGroup f f.vd) occ lat (0, 0)
    (∀ m, shMod f e = some m → 0 < m →
      (e.MayIssue (row2 true) →
        Runs (.smadd id f) s (take fun i j => (a i j + b i j) % m)
        ∧ Runs (.smsub id f) s (take fun i j => (a i j + (m - b i j % m)) % m))
      ∧ (e.MayIssue (rowP true (8, 8) (12, 12)) →
        Runs (.saddp id f) s (take fun i j => if j = 0 then (a i 0 + pub i) % m else a i j)))
    ∧ (shP2 f = false → f.ms = 0#3 →
      (e.MayIssue (row2 true) → Runs (.sxor id f) s (take fun i j => a i j ^^^ b i j))
      ∧ (e.MayIssue (rowP true (8, 8) (12, 12)) →
        Runs (.sxorp id f) s (take fun i j => if j = 0 then a i 0 ^^^ pub i else a i j)))
    ∧ (∀ q, shP2 f = false → e.modulus f.ms f.w = some q → q % 2 = 1 → 1 < q → q < 2 ^ w →
      e.MayIssue (rowP true (16, 24) (20, 28)) →
      ∃ m : Nat → Nat → Nat, (∀ i j, IsMont w q (a i j) (pub i) (m i j)) ∧ Runs (.smmulc id f) s (take m))

/-- The drawing share words complete with shares whose combination is the value of their row: the AND, the same value,
the public operand, the residue, the reduced value, the chosen operand; which shares carry it is left to the mask
generator, whose output of the word's own ec MRD delivers in element order (R76, R149, R157 to R163). -/
def Obligations.FreshShares : Prop :=
  ∀ (id : EngId) (f : VV) (s : State),
    let e := s.eng id.idx
    let w := widthOf f.w
    let ord := shOrd f
    let xor (r : BitVec 5) (i : Nat) : Nat := Kind.boolean.combine (shElem f e r i)
    let sum (m : Nat) (r : BitVec 5) (i : Nat) : Nat := (Kind.arith m).combine (shElem f e r i)
    let combined (k : Kind) (e' : Engine) (i : Nat) : Nat :=
      k.combine ((List.range (sharesOf ord)).map fun j => e'.laneOf w f.pr (shareReg f.pr f.vd.toNat j) i)
    let take (k : Kind) (val : Nat → Nat) : State → Prop := VectorsChange id s (shGroup f f.vd) fun e' =>
      ∀ i, i < countOf w f.pr →
        (e.active w f.pr f.pm i = true → combined k e' i = val i)
        ∧ (e.active w f.pr f.pm i = false → ∀ j, j < sharesOf ord →
          e'.laneOf w f.pr (shareReg f.pr f.vd.toNat j) i = e.laneOf w f.pr (shareReg f.pr f.vd.toNat j) i)
    (let r := vxuRow f (vvOnly f [.vd, .pm]) [] [f.vd] 8 10
     e.MayIssue { r with draw := formOcc f.pr 8, holds := (.mrg, formOcc f.pr 8) :: r.holds } →
       Runs (.mrd id f) s (LanesTake id f s fun i => mrgWord e.seed (e.pealEc + w * i / 512) / 2 ^ (w * i % 512)))
    ∧ (shP2 f = false → f.ms = 0#3 →
      (e.MayIssue (shRow f (shLegal f [.vd, .va, .vb] [f.vd, f.va, f.vb] []) (shGroup f f.va ++ shGroup f f.vb)
          (shGroup f f.vd) (24, 56) (28, 60) (8, 24)) →
        Runs (.sand id f) s (take .boolean fun i => xor f.va i &&& xor f.vb i))
      ∧ (e.MayIssue (shRow f (shLegal f [.vd, .va] [f.vd, f.va] []) (shGroup f f.va) (shGroup f f.vd) (16, 24) (20, 28) (8, 16)) →
        Runs (.sref id f) s (take .boolean (xor f.va)))
      ∧ (e.MayIssue (shRow f (shLegal f [.vd, .va] [f.vd] [f.va]) (formRegs f.pr f.va.toNat) (shGroup f f.vd) (16, 24) (20, 28)
          (8, 16)) →
        Runs (.ssplit id f) s (take .boolean (elem f f.va e)))
      ∧ (e.MayIssue (shRow f (shLegal f [.vd, .va, .vb, .vc] [f.vd, f.va, f.vb, f.vc] [])
          (shGroup f f.va ++ shGroup f f.vb ++ shGroup f f.vc) (shGroup f f.vd) (48, 112) (52, 116) (16, 48)) →
        Runs (.scsel id f) s (take .boolean fun i => if xor f.vc i % 2 = 1 then xor f.va i else xor f.vb i))
      ∧ (e.MayIssue (shRow f (shLegal f [.vd, .va] [f.va] [f.vd]) (shGroup f f.va) (formRegs f.pr f.vd.toNat) (24, 40) (28, 44)
          (8, 16)) →
        Runs (.sopen id f) s (LanesTake id f s (xor f.va))))
    ∧ ∀ m, shMod f e = some m → 0 < m → m ≤ 2 ^ w →
      (e.MayIssue (shRow f (shLegal f [.vd, .va] [f.vd, f.va] []) (slotReads f.ms ++ shGroup f f.va) (shGroup f f.vd)
          (sb2aOcc f) ((sb2aOcc f).1 + 4, (sb2aOcc f).2 + 4) (8, 32)) →
        Runs (.sb2a id f) s (take (.arith m) fun i => xor f.va i % m))
      ∧ (e.MayIssue (shRow f (sa2bLegal f) (slotReads f.ms ++ shGroup f f.va) (shGroup f f.vd)
          (sa2bOcc f) ((sa2bOcc f).1 + 4, (sa2bOcc f).2 + 4) ((sa2bOcc f).1 / 2, (sa2bOcc f).2 / 2)) →
        Runs (.sa2b id f) s (take .boolean (sum m f.va)))
      ∧ ((shP2 f = true ∨ f.ms ≠ 0#3) →
        (e.MayIssue (shRow f (shLegal f [.vd, .va] [f.vd, f.va] []) (slotReads f.ms ++ shGroup f f.va) (shGroup f f.vd)
            (16, 24) (20, 28) (8, 16)) → Runs (.sref id f) s (take (.arith m) (sum m f.va)))
        ∧ (e.MayIssue (shRow f (shLegal f [.vd, .va] [f.vd] [f.va]) (slotReads f.ms ++ formRegs f.pr f.va.toNat)
            (shGroup f f.vd) (16, 24) (20, 28) (8, 16)) →
          Runs (.ssplit id f) s (take (.arith m) fun i => elem f f.va e i % m))
        ∧ (e.MayIssue (shRow f (shLegal f [.vd, .va] [f.va] [f.vd]) (slotReads f.ms ++ shGroup f f.va)
            (formRegs f.pr f.vd.toNat) (24, 40) (28, 44) (8, 16)) →
          Runs (.sopen id f) s (LanesTake id f s (sum m f.va))))

/-! ## Keccak unit and sampling -/

/-- The Keccak-unit words complete: the state they leave, as the combination of its shares, or the bytes of it that they
move (R74, R165 to R167). -/
def Obligations.KeccakUnit : Prop :=
  ∀ (id : EngId) (f : VV) (s : State),
    let e := s.eng id.idx
    let ord := kcOrd f
    let n := sharesOf ord
    let slots (P : Engine → Prop) : State → Prop := fun t => ∃ e', OnlyEngine id s t e'
      ∧ e'.still = Engine.still { e with kcu := e'.kcu, kcuUpset := none } ∧ (∀ j, n ≤ j → e'.kslot j = e.kslot j) ∧ P e'
    let o := 64 * kOff f
    let part (x : Nat) : Nat := x % 2 ^ (8 * kRb f)
    e.kcuUpset = none →
    (e.MayIssue { legal := kcLegal f [], vec := true, writes := (kcuLocs ord).map fun l => (l, 1), holds := [(.kcu, 1)] } →
      Runs (.kinit id f) s (slots fun e' => ∀ j, j < n → e'.kslot j = 0#1600))
    ∧ (e.MayIssue { legal := kcLegal f [.va, .imm] && kRangeOk f && groupOk ord false f.va, vec := true
                    reads := kcuLocs ord ++ groupRegs ord false f.va.toNat
                    writes := (kcuLocs ord).map fun l => (l, kOcc f), holds := [(.kcu, kOcc f)] } →
      Runs (.kabs id f) s (slots fun e' => ∀ j, j < n →
        (e'.kslot j).toNat = (e.kslot j).toNat ^^^ part ((e.vreg (f.va.toNat + j)).toNat / 2 ^ o)))
    ∧ (let c := [12, 48, 96].getD ord 96
      let d := if ord = 0 then 0 else c
      e.MayIssue { legal := kcLegal f [], vec := true, draw := d, reads := kcuLocs ord
                   writes := (kcuLocs ord).map fun l => (l, c)
                   holds := (.kcu, c) :: (if d = 0 then [] else [(.mrg, d)]) } →
      Runs (.kperm id f) s (slots fun e' => e'.kcombined ord = keccakF (e.kcombined ord)))
    ∧ (e.MayIssue { legal := kcLegal f [.vd, .imm] && kRangeOk f && groupOk ord false f.vd, vec := true
                    reads := kcuLocs ord, writes := (groupRegs ord false f.vd.toNat).map fun l => (l, kOcc f + 2)
                    holds := [(.kcu, kOcc f)] } →
      Runs (.ksqz id f) s (VectorsChange id s (groupRegs ord false f.vd.toNat) fun e' =>
        ∀ j, j < n → ∀ k, k < 4096 → (e'.vreg (f.vd.toNat + j)).getLsbD k =
          if o ≤ k ∧ k < o + 8 * kRb f then (e.kslot j).getLsbD (k - o) else (e.vreg (f.vd.toNat + j)).getLsbD k))
    ∧ (e.MayIssue (kMemRow f true e) → e.dmemDenied (descAddr f e) (256 * n) 64 true = none →
      Runs (.ksave id f) s fun t => ∃ e', OnlyEngine id s t e'
        ∧ e'.still = Engine.still { e with dmem := e'.dmem, badParity := e'.badParity }
        ∧ ∀ x, rdByte e'.dmem x =
          let k := x - descAddr f e
          if descAddr f e ≤ x ∧ k < 256 * n then
            (if k % 256 < 200 then BitVec.ofNat 8 ((e.kslot (k / 256)).toNat / 256 ^ (k % 256)) else 0#8)
          else rdByte e.dmem x)
    ∧ (e.MayIssue (kMemRow f false e) → e.dmemDenied (descAddr f e) (256 * n) 64 false = none →
      (∀ j, j < n → e.dmemBad (descAddr f e + 256 * j) 200 = false) →
      Runs (.krest id f) s (slots fun e' => ∀ j, j < n →
        (e'.kslot j).toNat = leNat (rdBytes e.dmem (descAddr f e + 256 * j) 200)))

/-- The samplers complete: VCBD leaves shares that combine, modulo 3329, to the difference of the two bit counts; VSREJ
writes the accepted candidates in order from s[ss] on and moves s[ss] past them, at most to the element count (R168,
R169). -/
def Obligations.Samplers : Prop :=
  ∀ (id : EngId) (f : VV) (s : State),
    let e := s.eng id.idx
    let ord := kcOrd f
    (let eta := f.imm.toNat
      let occ := [8, 40, 112].getD ord 112
      let d := [0, 8, 32].getD ord 32
      let bits := (e.shares ord false f.va.toNat).foldl (fun a b => a ^^^ b) 0#8192
      e.MayIssue { legal := kcLegal f [.vd, .va, .imm, .pm] && (eta == 2 || eta == 3) && groupOk ord false f.vd
                     && groupOk ord false f.va
                   vec := true, draw := d, reads := [.vl, .p f.pm.toNat] ++ groupRegs ord false f.va.toNat
                   writes := (groupRegs ord false f.vd.toNat).map fun l => (l, occ + 4)
                   holds := (.vxu, occ) :: (if d = 0 then [] else [(.mrg, d)]) } →
      Runs (.vcbd id f) s (VectorsChange id s (groupRegs ord false f.vd.toNat) fun e' => ∀ i, i < 256 →
        (e.active 16 false f.pm i = true →
          (Kind.arith 3329).combine ((List.range (sharesOf ord)).map fun j => e'.laneOf 16 false (f.vd.toNat + j) i)
            = cbdCoeff bits eta i)
        ∧ (e.active 16 false f.pm i = false → ∀ j, j < sharesOf ord →
          e'.laneOf 16 false (f.vd.toNat + j) i = e.laneOf 16 false (f.vd.toNat + j) i)))
    ∧ (let ms := f.ms.toNat
      let rb := f.imm.toNat
      let w := rejWidth ms
      let cnt := countOf w false
      let acc := rejValues ms ((bytesOfWide (e.wide false f.va.toNat) 0 rb).map BitVec.toNat)
      let k := (e.sreg f.ss.toNat).toNat
      e.MayIssue { legal := kcLegal f [.vd, .va, .ss, .ms, .imm] && f.w == 0#2 && decide (ms ≤ 2) && decide (1 ≤ rb)
                     && decide (rb ≤ 200) && decide (rb % (if ms = 2 then 2 else 3) = 0)
                   vec := true, reads := .s f.ss.toNat :: formRegs false f.va.toNat
                   writes := (.s f.ss.toNat, 20) :: (formRegs false f.vd.toNat).map fun l => (l, 20)
                   holds := [(.vxu, 16)] } →
      Runs (.vsrej id f) s fun t => ∃ e', OnlyEngine id s t e'
        ∧ e'.still = Engine.still { e with vregs := e'.vregs, sregs := e'.sregs, badParity := e'.badParity }
        ∧ MarksMend [.sreg f.ss.toNat, .vreg f.vd.toNat] e e'
        ∧ (∀ r, r ≠ f.vd.toNat → e'.vreg r = e.vreg r)
        ∧ (∀ i, i < cnt → e'.laneOf w false f.vd.toNat i =
            if k ≤ i ∧ i < k + acc.length then acc.getD (i - k) 0 % 2 ^ w else e.laneOf w false f.vd.toNat i)
        ∧ ∀ r, e'.sreg r = if r = f.ss.toNat ∧ r ≠ 0 then BitVec.ofNat 64 (min (k + acc.length) cnt) else e.sreg r)

/-! ## Key port -/

/-- KLD puts block BLK of the input key's shares at the DMEM addresses of its share registers, in the three-share form
with share 0 masked by the third: zeros where the call carries no such key, where the key is orphaned, which fixes the status
KEY_ORPHANED, or where its entry does not permit the score's class, which raises DE_KEYPORT_DENY and fixes ATTRIBUTE_DENIED; a
block with wrong parity raises PARITY and is not delivered (R27, R71, R73, R172, R581). KST puts the blocks of DMEM into the key-port buffer
of an output key that the call carries (R72). -/
def Obligations.KeyPort : Prop :=
  ∀ (id : EngId) (f : KP) (s : State),
    let e := s.eng id.idx
    let c := id.cl.toNat
    let key := (s.cl c).inKey e.callOf id.en.toNat f.key.toNat
    let zeros : Bytes := List.replicate 512 0#8
    let delivers (x0 x1 : Bytes) (denied : Option Nat) (t : State) : Prop :=
      ∃ b : List Bytes, (if f.ts then ∃ m, m.length = 512 ∧ b = [xorBytes x0 m, x1, m] else b = [x0, x1])
        ∧ (t.eng id.idx).dmem = (putBlocks f e 0 b e).dmem ∧ (t.eng id.idx).keyDenied = denied
        ∧ (t.eng id.idx).sregs = e.sregs ∧ (t.eng id.idx).vregs = e.vregs ∧ t.clusters = s.clusters ∧ t.keys = s.keys
        ∧ (∀ j, j ≠ id.idx → t.eng j = s.eng j)
    (e.MayIssue (kpRow f true e) → kpDenied f e id.en.toNat true = none →
      (key = none → Runs (.kld id f) s (delivers zeros zeros e.keyDenied))
      ∧ (∀ k, key = some k → k.orphan = true → Runs (.kld id f) s (delivers zeros zeros (some (e.keyDenied.getD 0x04))))
      ∧ (∀ k, key = some k → kldRefused e k = true →
        Runs (.kld id f) s fun t => delivers zeros zeros (some (e.keyDenied.getD 0x05)) t ∧ Raised c 12 s t)
      ∧ (∀ k, key = some k → k.orphan = false → kldRefused e k = false →
        (k.bad = false → Runs (.kld id f) s (delivers (padTo 512 (k.share0.drop (512 * f.blk.toNat)))
          (padTo 512 (k.share1.drop (512 * f.blk.toNat))) e.keyDenied))
        ∧ (k.bad = true → Runs (.kld id f) s fun t => (t.eng id.idx).cause = Cause.parity.code
          ∧ (t.eng id.idx).issuing = false ∧ (t.eng id.idx).dmem = e.dmem)))
    ∧ (let y (j : Nat) : Bytes := rdBytes e.dmem (kpAddr f e j) 512
      e.MayIssue (kpRow f false e) → kpDenied f e id.en.toNat false = none →
      (∀ j, j < kpShares f → e.dmemBad (kpAddr f e j) 512 = false) → e.hasOutKey f.key.toNat = true →
      ((s.cl c).outKey e.callOf id.en.toNat f.key.toNat).masters.testBit (classBit ((e.resident.map (·.cls)).getD 0)) = true →
      Runs (.kst id f) s fun t =>
        let k := (t.cl c).outKey e.callOf id.en.toNat f.key.toNat
        (k.share0.drop (512 * f.blk.toNat)).take 512 = (if f.ts then xorBytes (y 0) (y 2) else y 0)
        ∧ (k.share1.drop (512 * f.blk.toNat)).take 512 = y 1
        ∧ (t.eng id.idx).dmem = e.dmem ∧ (t.eng id.idx).keyDenied = e.keyDenied
        ∧ (∀ j, j ≠ id.idx → t.eng j = s.eng j) ∧ t.keys = s.keys)

/-! ## Score library -/

/-- The operations whose score always accepts what it is given end OK with the output length of their set: key
generations, decapsulations, signing, derivations, first steps of procedures; an ML-DSA or FN-DSA signature that its own
public key does not verify ends 0x09 without output instead (R255 to R268, R274 to R279, R282). -/
def Obligations.LibraryMakes : Prop :=
  ∀ (id : EngId) (s : State) (p : Peal) (c : Call), Serving id s p c →
    let fixed := LibIn.fixedTries
    let x := s.libIn id.idx c p.call
    let ok (i : Instr) (tries : LibIn → Nat) (len : Nat) : Prop := Accepts i id s p c tries 0 len
    let signs (i : Instr) (z : SigSet) (len : Nat) : Prop :=
      let good := Config.sigVerify z.set c.aux (padTo z.pk (Config.sigPkOf z.set (x.key 0))) x.ctx x.msg (x.signature z)
      (good = true → ok i LibIn.tries len) ∧ (good = false → Accepts i id s p c LibIn.tries 0x09 0)
    (∀ j v, j < 3 → v < 2 →
      (c.opcode = 0x01 + 6 * j + v → ok (.mlKemKeygen id) fixed ([800, 1184, 1568].getD j 0))
      ∧ (c.opcode = 0x05 + 6 * j + v → ok (.mlKemDecaps id) fixed 0)
      ∧ (c.opcode = 0x14 + 5 * j + v → ok (.mlDsaKeygen id) fixed ([1312, 1952, 2592].getD j 0))
      ∧ (c.opcode = 0x16 + 5 * j + v → signs (.mlDsaSign id) (mlDsa c.opcode) ([2420, 3309, 4627].getD j 0)))
    ∧ (∀ j, j < 3 →
      (c.opcode = 0x84 + 3 * j → ok (.hqcKeygen id) fixed ([2249, 4522, 7245].getD j 0))
      ∧ (c.opcode = 0x86 + 3 * j → ok (.hqcDecaps id) fixed 0))
    ∧ (∀ j, j < 2 →
      (c.opcode = 0x24 + 3 * j → ok (.fnDsaKeygen id) LibIn.tries ([897, 1793].getD j 0))
      ∧ (c.opcode = 0x25 + 3 * j → signs (.fnDsaSign id) (fnDsa c.opcode) ([666, 1280].getD j 0))
      ∧ (c.opcode = 0x7C + 3 * j → ok (.edKeygen id) fixed ([32, 57].getD j 0))
      ∧ (c.opcode = 0x7D + 3 * j → ok (.edSign id) fixed ([64, 114].getD j 0))
      ∧ (c.opcode = 0x78 + 2 * j → ok (.xKeygen id) fixed ([32, 56].getD j 0)))
    ∧ (∀ z, z < 12 →
      (c.opcode = 0x2C + 3 * z → ok (.slhDsaKeygen id) fixed (2 * slhN z))
      ∧ (c.opcode = 0x2D + 3 * z → ok (.slhDsaSign id) fixed ((slhParts z).getD 0 0)))
    ∧ (∀ j, j < 5 → c.opcode = 0x97 + j → ok (.mceDecaps id) fixed 0)
    ∧ (c.opcode = 0x90 → ok (.mceKgBegin id) fixed 8) ∧ (c.opcode = 0x94 → ok (.mceEncBegin id) fixed 0)
    ∧ (c.opcode = 0xA0 → ok (.hkdfSha256 id) fixed 0) ∧ (c.opcode = 0xA1 → ok (.hkdfSha384 id) fixed 0)
    ∧ (c.opcode = 0xA2 → ok (.kmac128 id) fixed 0) ∧ (c.opcode = 0xA3 → ok (.kmac256 id) fixed 0)

/-- Encapsulation to a named key ends OK with the ciphertext; verification against a named key ends OK or VERIFY_FAILED
and outputs nothing, as the standard decides; a part of a long verification, and the exchanges, end OK where R268, R269
and R277 let them; signing with a tree ends OK with its chain and signature, or 0x09 without output where the signature does not
verify under the tree (R256 to R269, R273, R277, R278, R280, R282). -/
def Obligations.LibraryDecides : Prop :=
  ∀ (id : EngId) (s : State) (p : Peal) (c : Call), Serving id s p c →
    let fixed := LibIn.fixedTries
    let x := s.libIn id.idx c p.call
    let ok (i : Instr) (len : Nat) : Prop := Accepts i id s p c fixed 0 len
    let decides (i : Instr) : Prop := ∃ st, (st = 0 ∨ st = 0x0D) ∧ Accepts i id s p c fixed st 0
    (c.keyHandle 0 ≠ 0 →
      (∀ j v, j < 3 → v < 2 → c.opcode = 0x03 + 6 * j + v → ok (.mlKemEncaps id) ([768, 1088, 1568].getD j 0))
      ∧ (∀ j, j < 3 → c.opcode = 0x85 + 3 * j → ok (.hqcEncaps id) ([4433, 8978, 14421].getD j 0))
      ∧ (∀ j, j < 3 → c.opcode = 0x18 + 5 * j → decides (.mlDsaVerify id))
      ∧ (∀ j, j < 2 → c.opcode = 0x26 + 3 * j → decides (.fnDsaVerify id))
      ∧ (∀ j, j < 2 → c.opcode = 0x7E + 3 * j → decides (.edVerify id))
      ∧ (∀ z, z < 12 → c.opcode = 0x2E + 3 * z →
        if slhOneVerify z then decides (.slhDsaVerify id) else ok (.slhDsaVerify id) 0)
      ∧ (c.opcode = 0x6F → decides (.lmsHssVerify id)) ∧ (c.opcode = 0x74 → decides (.xmssVerify id)))
    ∧ (∀ z, z < 12 →
      let part := leAt (x.key 1) 2 1
      let step (i : Instr) (st len : Nat) : Prop :=
        Accepts i id s p c (fun y => Config.fixedAttempts y.c.opcode (leAt (y.key 1) 2 1)) st len
      (c.opcode = 0x50 + 2 * z → contBad false z (slhParts z).length (x.key 1) (some (slhPkOf (x.key 0) z)) = false →
        step (.slhDsaSignContinuation id) 0 ((slhParts z).getD part 0))
      ∧ (c.opcode = 0x51 + 2 * z →
        contBad true z (slhParts z).length (x.key 1) (if c.keyHandle 0 = 0 then none else some (x.key 0)) = false →
        ∃ st, (st = 0 ∨ st = 0x0D) ∧ step (.slhDsaVerifyContinuation id) st 0))
    ∧ (∀ z, z < 2 →
      (c.opcode = 0x79 + 2 * z → (xSecret z (x.key 0) c.input).isSome = true → ok (.xExchange id) 0)
      ∧ (let n := if z = 0 then 1088 else 1568
        c.opcode = 0x9C + 2 * z → (xSecret z (x.key 1) (c.input.drop n)).isSome = true → ok (.hybridServer id) 0)
      ∧ (let k := mlKem (if z = 0 then 0x07 else 0x0D)
        c.opcode = 0x9D + 2 * z → modulusOk (c.input.take k.ek) = true →
        (xSecret z (padTo (xLen z) (x.rand.drop 32)) (c.input.drop k.ek)).isSome = true →
        ok (.hybridClient id) (k.ct + xLen z)))
    ∧ (let e := x.key 0
      let q := c.qIndex.getD 0
      let h := leAt e 2 1
      let n := leAt e 3 1
      indexOk c.qIndex h = true → Config.treePathOk e q (c.input.drop (c.input.length - h * n)) = true →
      let ml := c.input.length - h * n
      let sl := treeSigLen (leAt e 1 1) h n
      let sig := padTo sl (Config.treeSign e q (c.input.take ml) (c.input.drop ml))
      let signs (i : Instr) : Prop :=
        (Config.treeSigOk e q (c.input.take ml) (c.input.drop ml) sig = true → ok i ((entChain e).length + sl))
        ∧ (Config.treeSigOk e q (c.input.take ml) (c.input.drop ml) sig = false → Accepts i id s p c fixed 0x09 0)
      (0x6B ≤ c.opcode → c.opcode ≤ 0x6E → signs (.lmsSign id)) ∧ (c.opcode = 0x73 → signs (.xmssSign id)))

/-- The steps of the procedures end OK on the records they ask for: a tree is begun, stepped 512 leaves at a time and
ended; a McEliece key generation and encapsulation go step by step; an Owner's score leaves what its code leaves (R270 to
R276, R202, R222). -/
def Obligations.LibraryProcedures : Prop :=
  ∀ (id : EngId) (s : State) (p : Peal) (c : Call), Serving id s p c →
    let x := s.libIn id.idx c p.call
    let j := x.key 1
    let ok (i : Instr) (len : Nat) : Prop := Accepts i id s p c LibIn.fixedTries 0 len
    (∀ t, (c.opcode = 0x68 ∨ c.opcode = 0x70) → c.tree = some t → c.keyHandle 0 = 0 → ok (.treeBegin id) 0)
    ∧ ((c.opcode = 0x69 ∨ c.opcode = 0x71) → jobBad x (c.opcode - 1) = false → leAt j 32 4 < treeSteps (leAt j 3 1) →
      ok (.treeStep id) (leAt j 4 1 * min 512 (2 ^ leAt j 3 1)))
    ∧ ((c.opcode = 0x6A ∨ c.opcode = 0x72) → jobBad x (c.opcode - 2) = false → leAt j 32 4 = treeSteps (leAt j 3 1) →
      leAt j 6 1 = 0 → c.keyHandle 0 = 0 → ok (.treeEnd id) (treePk j (Config.treeRoot (treeSpec j))).length)
    ∧ (c.opcode = 0x91 → isJob j = true → (mceJobStep j).1 = 1 → isGoppa j (x.key 0) = true → c.keyHandle 0 ≠ 0 →
      c.keyHandle 2 = 0 → c.keyHandle 3 = 0 → ok (.mceKgStep id) 8)
    ∧ (c.opcode = 0x92 → isJob j = true → (mceJobStep j).1 = 4 → isGoppa j (x.key 0) = true → ok (.mceKgEnd id) 8)
    ∧ (let z := mceJobSet j
      let t := leAt c.param 0 2
      let done := decide (t < mcePivots z)
      c.opcode = 0x93 → isJob j = true → (mceJobStep j).1 = 4 → mceMt z / 32 ≤ t → t < mcePanels z →
      isPanel j (x.key 2) t (if done then t + 1 else mcePivots z) done = true → ok (.mcePkOut id) (4 * mceMt z))
    ∧ (let z := leAt j 1 1
      let first := leAt c.param 0 2
      let n := leAt c.param 2 2
      (c.opcode = 0x95 → isEncJob j = true → first + n ≤ mceMt z →
        Nat.land ((2 ^ n - 1) * 2 ^ first) (mceCovered j) = 0 → ok (.mceEncSeg id) 0)
      ∧ (c.opcode = 0x96 → isEncJob j = true → mceCovered j = 2 ^ mceMt z - 1 → ok (.mceEncEnd id) (mceCt z)))
    ∧ (0xC0 ≤ c.opcode → ∀ (out : Bytes) (status accept : BitVec 8) (k0 k1 : Option Bytes),
      Runs (.userScoreCall id out status accept k0 k1) s (ScoreEnds id s p accept.toNat status.toNat out.length))


/-! ## Scores -/

/-- The commands of the score store complete: a load fetches the image, the checks put a good score into the store and
leave the store alone otherwise, a drop empties an entry that no engine holds, a placement marks its engines, and a load
leaves code and constants in them (R200 to R205, R242). -/
def Obligations.ScoreStore : Prop :=
  ∀ (s : State),
    (∀ (cmd : BitVec 32) (b : Bytes), s.boot.ready = true → s.sch.fetched = none →
      let a := (s.reg 0x100020).toNat + (s.reg 0x100024).toNat * 2 ^ 32
      Runs (.schLoadGo cmd (.ok b)) s fun t =>
        t.reg 0x10002C = cmd &&& 0x1FF7F#32 ∧ (∀ x, x ≠ 0x10002C → x ≠ 0x20C → t.reg x = s.reg x)
        ∧ t.sch = { s.sch with fetched := some (if s.windowOk 0 a (s.reg 0x100028).toNat false then some b else none) }
        ∧ Signals { s with sch := t.sch, regs := t.regs } t)
    ∧ (∀ (cmd : BitVec 32) (image : HostRead), s.boot.ready = true →
      (s.sch.fetched ≠ none → Runs (.schLoadGo cmd image) s (fun t => Signals s t ∧ Raised blkHiu 11 s t)
        ∧ Runs (.schLoadDrop cmd) s fun t => Signals s t ∧ Raised blkHiu 11 s t)
      ∧ (s.sch.placing ≠ none → Runs (.schPlaceGo cmd) s fun t => Signals s t ∧ Raised blkHiu 11 s t))
    ∧ (∀ (b : Bytes) (r : Nat) (o : Option (Nat × Score)), s.sch.fetched = some (some b) →
      s.verifyScore b (s.reg 0x100028).toNat (bit32 (s.reg 0x10002C) 16) (fld (s.reg 0x10002C) 8 8) = (r, o) →
      Runs .scoreVerifyDone s fun t => t.sch.fetched = none ∧ t.sch.loadResult = r
        ∧ (o = none → r ≠ 0 ∧ t.sch.store = s.sch.store ∧ t.sch.loadIndex = s.sch.loadIndex)
        ∧ (∀ i x, o = some (i, x) → r = 0 ∧ t.sch.loadIndex = i ∧ t.score i = some x ∧ ∀ j, j ≠ i → t.score j = s.score j)
        ∧ t = { s with sch := { s.sch with fetched := none, loadResult := r, loadIndex := t.sch.loadIndex
                                           store := t.sch.store } })
    ∧ (∀ (cmd : BitVec 32), s.boot.ready = true → s.sch.fetched = none → fld cmd 0 7 < 64 →
      Runs (.schLoadDrop cmd) s fun t =>
        (if s.holdsScore (fld cmd 0 7) then t.sch = { s.sch with loadResult := 0x0C }
         else t.sch.loadResult = 0 ∧ t.score (fld cmd 0 7) = none ∧ ∀ j, j ≠ fld cmd 0 7 → t.score j = s.score j)
        ∧ t = { s with sch := { s.sch with loadResult := t.sch.loadResult, store := t.sch.store }, regs := t.regs })
    ∧ (∀ (cmd : BitVec 32), s.boot.ready = true → s.sch.placing = none →
      let i := fld cmd 0 7
      let c := fld cmd 16 4
      let refused (r : Nat) : Prop := Runs (.schPlaceGo cmd) s fun t =>
        t = { s with sch := { s.sch with placeResult := r }, regs := t.regs }
      (i ≠ 0x7F → s.score i = none → refused 1)
      ∧ (i = 0x7F ∨ s.score i ≠ none → (s.cl c).inService = false → refused 2)
      ∧ (i = 0x7F ∨ s.score i ≠ none → (s.cl c).inService = true →
        let index := if i = 0x7F then none else some i
        Runs (.schPlaceGo cmd) s fun t =>
          t.sch = { s.sch with placing := some { cluster := c, mask := s.reg 0x100044, index := index }, placeResult := 0 }
          ∧ (∀ j, t.eng j = if j / 32 = c ∧ bit32 (s.reg 0x100044) (j % 32) = true
              then { s.eng j with loading := some { index := index } } else s.eng j)
          ∧ t = { s with sch := t.sch, regs := t.regs, engines := t.engines }))
    ∧ (∀ (cluster : BitVec 4),
      let c := cluster.toNat
      (∃ n, n < 32 ∧ (s.eng (32 * c + n)).wants.isSome = true) →
      (∀ n, n < 32 → (s.eng (32 * c + n)).wants.isSome = true → s.loadBlocked (32 * c + n) = false) →
      Runs (.engineLoadDone cluster) s fun t =>
        (∀ n, n < 32 → (s.eng (32 * c + n)).wants = none → t.eng (32 * c + n) = s.eng (32 * c + n))
        ∧ (∀ n i x, n < 32 → (s.eng (32 * c + n)).wants = some (some i) → s.score i = some x →
          let e := t.eng (32 * c + n)
          e.loading = none ∧ e.resident.map (·.index) = some i ∧ e.resident.map (·.codeWords) = some x.codeWords
          ∧ (∀ w, w < x.codeWords → mget (fun _ => 0#64) e.imem w = BitVec.ofNat 64 (leAt x.code (8 * w) 8))
          ∧ ∀ a, rdByte e.dmem a = x.consts.getD a 0#8)
        ∧ (∀ n, n < 32 → (s.eng (32 * c + n)).wants = some none →
          let e := t.eng (32 * c + n)
          e.loading = none ∧ e.resident = none ∧ e.imem = [] ∧ e.dmem = [])
        ∧ (∀ j, j / 32 ≠ c → t.eng j = s.eng j) ∧ s.g ≤ t.g
        ∧ (∀ p, s.sch.placing = some p → p.cluster = c → t.sch.placing = none ∧ t.sch.placeResult = 0)
        ∧ t.keys = s.keys ∧ t.sch.store = s.sch.store ∧ t.clusters = s.clusters ∧ t.sch.calls = s.sch.calls)
    ∧ (∀ (cluster : BitVec 4) (p : Placement), s.sch.placing = some p → p.cluster = cluster.toNat →
      (∀ n, n < 32 → (s.eng (32 * cluster.toNat + n)).wants = none) →
      Runs (.engineLoadDone cluster) s fun t => t.sch = { s.sch with placing := none, placeResult := 0 }
        ∧ (∀ j, t.eng j = s.eng j) ∧ s.g ≤ t.g)

/-! ## Admission, staging and peals -/

/-- Admission takes a pending call, at most four in a beat; a floor period ends with the class sums at 0; staging leaves a
staged call with its inputs; a late start moves to a beat that R66 and R214 allow and is counted; a stream window is
filled, or its engine leaves the peal (R206 to R219, R666). -/
def Obligations.AdmissionAndStaging : Prop :=
  ∀ (s : State),
    (∀ k c u, bit32 (s.reg 0x100004) 0 = true → s.alarm = false →
      (s.allCalls.any fun e => e.2.st == .pool && s.exhausted e.2) = false →
      (s.sch.admitBeat = s.g → s.sch.admitCount < 4) → s.pickCall = some (k, c, u) →
      Runs .admitCall s fun t => ∃ d, t.call k = some d ∧ (d.st = .staging ∨ d.st = .unplaced) ∧ d.admitG = s.g
        ∧ d.desc = c.desc ∧ (∀ j, j ≠ k → t.call j = s.call j) ∧ t.g = s.g ∧ t.sch.admitBeat = s.g
        ∧ t.sch.admitCount = (if s.sch.admitBeat = s.g then s.sch.admitCount + 1 else 1) ∧ t.sch.admitCount ≤ 4
        ∧ t.instances = s.instances ∧ t.dram = s.dram ∧ t.hostMem = s.hostMem)
    ∧ Runs .floorPeriodEnd s (fun t => ∃ u, TimeAt (s.sch.periodStart + 4096) s u ∧ t = { u with sch := { s.sch with
        periodStart := s.sch.periodStart + 4096, sumBulk := 0, sumNormal := 0, sumUrgent := 0 } })
    ∧ (∀ (call : BitVec 32) (c : Call) (v : Variant) (input : HostRead) (records : List HostRead) (b : Bytes)
        (rand : List Bytes) (tag : Nat) (s1 s2 s3 s4 : State),
      s.call call.toNat = some c → c.st = .staging → c.var = some v → recParity input = false →
      s.readInput c input = (some b, s1) → s1.deliverHalves call.toNat c v records c.place = (none, s2) →
      s2.drawRand c v = some (rand, s3) → s3.drawTag c = some (tag, s4) →
      Runs (.stagingDone call input records) s fun t => ∃ d, t.call call.toNat = some d ∧ d.st = .staged ∧ d.input = b
        ∧ d.rand = rand ∧ d.tag = tag ∧ d.stagedG = t.g ∧ d.place = c.place
        ∧ (∀ j, j ≠ call.toNat → t.call j = s4.call j) ∧ t.engines = s4.engines ∧ t.keys.slots = s4.keys.slots)
    ∧ (∀ (call : BitVec 32) (c : Call) (h : Half), s.call call.toNat = some c → c.st = .staged → c.place = [h] →
      (s.cl (h.unit / 32)).globalOf h.start < c.stagedG + 2 →
      Runs (.startSlip call) s fun t => ∃ h', t.call call.toNat = some { c with place := [h'] } ∧ h'.unit = h.unit
        ∧ h'.frame = h.frame ∧ h'.start % 32 = h.unit % 32
        ∧ c.stagedG + 2 ≤ (s.cl (h.unit / 32)).globalOf h'.start
        ∧ c.admitG + s.stageLead ≤ (s.cl (h.unit / 32)).globalOf h'.start
        ∧ (∀ p, (s.eng h.unit).peal = some p → p.start + p.len ≤ h'.start)
        ∧ (∀ j, j ≠ call.toNat → t.call j = (s.call j).map fun d => d.behind h.unit h'.start c.curLen)
        ∧ t = { s with sch := { s.sch with calls := t.sch.calls, cntSlip := s.sch.cntSlip + 1#32 } })
    ∧ (∀ (call : BitVec 32) (n : BitVec 8) (c : Call) (v : Variant) (r : Resv) (b : Bytes),
      s.call call.toNat = some c → c.st = .inPeal → c.var = some v → v.resvs[n.toNat]? = some r → r.kind = 4 →
      n.toNat ∉ c.streams → s.windowOpen c r = true →
      let len := min r.length (c.inLen - v.streamOff n.toNat)
      s.windowOk c.inst (c.inAddr + v.streamOff n.toNat) len false = true →
      Runs (.streamFillDone call n (.ok b)) s fun t =>
        ∃ u, TimeAt (c.place.foldl (fun m h => max m (s.pealGlobal h r.winStart)) 0) s u
        ∧ t.call call.toNat = some { c with streams := c.streams ++ [n.toNat] }
        ∧ (∀ j, j ≠ call.toNat → t.call j = s.call j)
        ∧ (∀ h, c.place = [h] → t.cl (h.unit / 32)
            = ((s.cl (h.unit / 32)).commit (s.eng h.unit).localBeat).putExtent r (h.unit % 32) h.frame 0 (padTo len b)
          ∧ ∀ j, j ≠ h.unit / 32 → t.cl j = s.cl j)
        ∧ t = { u with clusters := t.clusters, sch := { s.sch with calls := t.sch.calls } })
    ∧ (∀ (id : EngId) (n : BitVec 8) (p : Peal) (c : Call) (r : Resv), (s.eng id.idx).peal = some p →
      s.call p.call = some c → p.var.resvs[n.toNat]? = some r → r.kind = 4 → p.attempt = false →
      n.toNat ∉ c.streams → p.scrubbed = false → (s.eng id.idx).leave = none →
      Runs (.streamWindowLate id n) s fun t =>
        ∃ u, TimeAt ((s.cl id.cl.toNat).globalOf (p.start + r.winEnd)) s u
          ∧ t.eng id.idx = { s.eng id.idx with leave := some .lateWindow, mode := .left }
          ∧ (∀ j, j ≠ id.idx → t.eng j = s.eng j)
          ∧ t = { u with engines := t.engines, sch := { s.sch with cntLate := s.sch.cntLate + 1#32 } })

/-- The beats of a peal complete: the start beat begins the code with a fresh or stepped seed, the scrub beat clears the
engine down to its constants and the call's input keys, the release beat frees the engine and queues the completion, and
the completion leaves the FIFO, waits for push and stagger and becomes ready (R61, R62, R78, R173, R221 to R226). -/
def Obligations.PealBeats : Prop :=
  ∀ (s : State),
    (∀ (id : EngId) (k : Nat) (c : Call) (h : Half) (v : Variant),
      let e := s.eng id.idx
      let g := (s.cl id.cl.toNat).globalOf h.start
      s.nextOn id.idx = some (k, c, h) → c.var = some v → e.mode = .idle → e.peal = none → e.needReload = false →
      ((e.resident.map (·.vec)).getD false = true → (s.cl id.cl.toNat).vpwr = .on) → (c.st = .staged → c.stagedG + 2 ≤ g) →
      Runs (.startBeat id) s fun t =>
        let e' := t.eng id.idx
        e'.mode = .run ∧ e'.pc = (if c.attempt = 0 then v.entry else v.attEntry) ∧ e'.pealEc = 0 ∧ e'.vl = 512
        ∧ e'.endSeen = false
        ∧ e'.qslots = [] ∧ e'.gslots = [] ∧ e'.loops = [] ∧ e'.rets = []
        ∧ e'.peal.map (·.call) = some k ∧ e'.peal.map (·.start) = some h.start ∧ e'.peal.map (·.scrubbed) = some false
        ∧ (∀ x, e.nextSeed = some x → e'.seed = x ∧ e'.fresh = true ∧ e'.nextSeed = none ∧ e'.carry = 0)
        ∧ (e.nextSeed = none → e'.seed = Config.seedStep e.seed ∧ e'.fresh = false ∧ e'.carry = min 65536 (e.carry + 1)
          ∧ (65535 ≤ e.carry → e'.mrgExh = true))
        ∧ e'.sregs = e.sregs ∧ e'.vregs = e.vregs ∧ e'.pregs = e.pregs ∧ e'.dmem = e.dmem ∧ e'.imem = e.imem
        ∧ (∀ j, j ≠ id.idx → t.eng j = s.eng j) ∧ t.call k = some { c with st := .inPeal }
        ∧ (∀ j, j ≠ k → t.call j = s.call j) ∧ t.g = max s.g g ∧ t.clusters = s.clusters ∧ t.keys = s.keys)
    ∧ (∀ (id : EngId) (p : Peal),
      let e := s.eng id.idx
      let lim := (e.resident.map (·.constLen)).getD 0
      let keep : Prop := e.mode ≠ .run ∧ s.chainGoesOn id.idx p = true
      e.peal = some p → p.scrubbed = false → e.mode = .ended ∨ e.mode = .left ∨ (e.mode = .run ∧ s.haltsOnExc id.idx = false) →
      Runs (.scrubBeat id) s fun t =>
        let e' := t.eng id.idx
        e'.sregs = [] ∧ e'.vregs = [] ∧ e'.pregs = [] ∧ e'.kcu = [] ∧ e'.vl = 512
        ∧ (∀ a, rdByte e'.dmem a = if a < lim then rdByte e.dmem a else 0#8) ∧ e'.imem = e.imem
        ∧ e'.peal = some { p with scrubbed := true } ∧ (e.mode = .run → e'.cause = 12 ∧ e'.mode = .left)
        ∧ (∀ x, x ∈ (t.cl id.cl.toNat).kpb ↔
            x ∈ (s.cl id.cl.toNat).kpb ∧ (x.out = true ∨ keep ∨ x.call ≠ p.call ∨ x.engine ≠ id.idx % 32))
        ∧ (t.cl id.cl.toNat).csm = (s.cl id.cl.toNat).csm
        ∧ (∀ j, j ≠ id.idx → t.eng j = s.eng j) ∧ t.sch = s.sch ∧ t.keys = s.keys
        ∧ t.g = max s.g ((s.cl id.cl.toNat).globalOf (p.start + p.len - 1)))
    ∧ (∀ (id : EngId) (p : Peal) (c : Call) (h : Half) (st : Nat),
      let r := s.halfResult p.call h p.var
      (s.eng id.idx).peal = some p → p.scrubbed = true → s.call p.call = some c → c.place = [h] → h.unit = id.idx →
      c.okeys = [] → c.counter = none → s.verdict c p.var [r] = .finish st →
      Runs (.releaseBeat id) s fun t => ∃ d, t.call p.call = some d ∧ d.st = .released ∧ d.status = st
        ∧ d.outLen = (if st = 0 then wordLen r.word else 0) ∧ d.made = [] ∧ d.pushed = decide (d.outLen = 0)
        ∧ d.relG = t.g ∧ d.due = t.g + (id.cl.toNat * c.stagger) % 32
        ∧ (∀ j, j ≠ p.call → t.call j = s.call j)
        ∧ (t.cl id.cl.toNat).fifo = (s.cl id.cl.toNat).fifo ++ [p.call]
        ∧ (∀ x ∈ (t.cl id.cl.toNat).kpb, x.call ≠ p.call)
        ∧ (t.eng id.idx).peal = none ∧ (t.eng id.idx).leave = none ∧ (∀ j, j ≠ id.idx → t.eng j = s.eng j)
        ∧ t.g = max s.g ((s.cl id.cl.toNat).globalOf (p.start + p.len)) ∧ t.keys = s.keys ∧ t.instances = s.instances)
    ∧ (∀ (call : BitVec 32) (c : Call), s.call call.toNat = some c → c.st = .released → c.pushed = false →
      s.heldBack c = false → isMauOp c.opcode = false → (s.inst c.inst).st ≠ .inFlr →
      s.windowOk c.inst c.outAddr (s.outBytes c).length true = true →
      Runs (.outputPushDone call) s fun t => t.call call.toNat = some { c with pushed := true, place := [] }
        ∧ (∀ j, j ≠ call.toNat → t.call j = s.call j) ∧ t.hostMem = wrBytes s.hostMem c.outAddr (s.outBytes c)
        ∧ t.keys = s.keys ∧ t.instances = s.instances ∧ t.g = s.g ∧ t.faults = s.faults)
    ∧ (∀ (cluster : BitVec 4) (k : Nat) (rest : List Nat) (c : Call), (s.cl cluster.toNat).fifo = k :: rest →
      s.call k = some c →
      Runs (.completionFifoDrain cluster) s fun t => t.cl cluster.toNat = { s.cl cluster.toNat with fifo := rest }
        ∧ (∀ j, j ≠ cluster.toNat → t.cl j = s.cl j) ∧ t.call k = some { c with inFifo := false }
        ∧ (∀ j, j ≠ k → t.call j = s.call j)
        ∧ t = { s with clusters := t.clusters, sch := { s.sch with calls := t.sch.calls } })
    ∧ (∀ (call : BitVec 32) (c : Call), s.call call.toNat = some c → c.st = .released → c.inFifo = false →
      c.pushed = true → s.heldBack c = false → (s.inst c.inst).st ≠ .inFlr → s.batch c.inst c.queue = false →
      Runs (.staggerEnd call) s fun t => t.call call.toNat = none ∧ (∀ j, j ≠ call.toNat → t.call j = s.call j)
        ∧ t.g = max s.g c.due
        ∧ ∃ x, (t.queue c.inst c.queue).ready = (s.queue c.inst c.queue).ready ++ [x] ∧ x.index = c.index
          ∧ x.status = c.status ∧ x.opcode = c.opcode ∧ x.outBytes = (if c.status = 0 then c.outLen else 0))

/-! ## Vector power and seeds -/

/-- The events of a cluster's vector domain complete: a held request starts the wake once the window clears, the wake ends
ON or fails as a fatal error of the cluster, an idle domain loses its vector state and switches off, FORCE_ON keeps it
on, and a private-wire transfer fills a next-seed register (R39, R78, R83, R84). -/
def Obligations.PowerAndSeeds : Prop :=
  ∀ (s : State) (cluster : BitVec 4),
    let c := cluster.toNat
    let k := s.cl c
    let others (t : State) : Prop := ∀ j, j ≠ c → t.cl j = s.cl j
    (k.wakeReq = true → k.vpwr = .off →
      Runs (.wakeWindowClear cluster) s fun t => ∃ u, TimeAt ((s.sch.wakeTimes.getD 1 0) + wakeWindow) s u
        ∧ t.cl c = { k with vpwr := .waking, vpwrDue := t.g + k.wakeBeats, wakeReq := false } ∧ others t
        ∧ t = { u with clusters := t.clusters, sch := { s.sch with wakeTimes := (t.g :: s.sch.wakeTimes).take 2 } })
    ∧ (k.vpwr = .waking →
      Runs (.wakeCountDone cluster true) s (fun t => ∃ u, TimeAt k.vpwrDue s u
        ∧ t.cl c = { k with vpwr := .on, wakes := k.wakes + 1#16, idleSince := t.g } ∧ others t
        ∧ t = { u with clusters := t.clusters })
      ∧ Runs (.wakeCountDone cluster false) s fun t =>
        (t.cl c).vpwr = .off ∧ (t.cl c).fatal = true ∧ others t ∧ t.g = max s.g k.vpwrDue
        ∧ (∀ n, n < 32 → (s.eng (32 * c + n)).peal ≠ none → (t.eng (32 * c + n)).leave ≠ none)
        ∧ (bit32 (s.fault c).fen 20 = true → bit32 (t.fault c).fstat 20 = true) ∧ t.sch = s.sch ∧ t.keys = s.keys)
    ∧ (k.vpwr = .on → s.forceOn c = false → s.vecWork c = false →
      Runs (.vectorIdle cluster) s fun t =>
        (t.cl c).vpwr = .gating ∧ others t ∧ t.g = max s.g (k.globalOf (k.localOf k.idleSince + s.idleHold c))
        ∧ (t.cl c).vpwrDue = k.globalOf (k.localOf t.g + 5)
        ∧ (∀ n, n < 32 → t.eng (32 * c + n) = (s.eng (32 * c + n)).gate)
        ∧ (∀ j, j / 32 ≠ c → t.eng j = s.eng j) ∧ t.sch = s.sch ∧ t.keys = s.keys)
    ∧ (k.vpwr = .gating → k.wakeReq = false →
      Runs (.gatingDone cluster) s fun t => ∃ u, TimeAt k.vpwrDue s u ∧ t.cl c = { k with vpwr := .off } ∧ others t
        ∧ t = { u with clusters := t.clusters })
    ∧ (∀ on : Bool, s.boot.ready = true →
      Runs (.forceOn cluster on) s fun t => t.forceOn c = on ∧ t.idleHold c = s.idleHold c ∧ others t
        ∧ (on = true → k.vpwr = .off → s.wakeGrantable = true → (t.cl c).vpwr = .waking)
        ∧ (on = true → k.vpwr = .off → s.wakeGrantable = false → (t.cl c).wakeReq = true ∧ (t.cl c).held = k.held + 1#16)
        ∧ (on = true → k.vpwr = .on ∨ k.vpwr = .waking → t.cl c = k)
        ∧ (on = false → t.cl c = { k with idleSince := s.g }) ∧ t.engines = s.engines ∧ t.g = s.g)
    ∧ (∀ (id : EngId) (x : BitVec 256) (u : State), s.draw256 = some (x, u) →
      Runs (.seedDelivery id) s fun t => t.eng id.idx = { s.eng id.idx with nextSeed := some x, mrgExh := false }
        ∧ (∀ j, j ≠ id.idx → t.eng j = s.eng j) ∧ t = { s with engines := t.engines, ent := u.ent })

/-! ## Host interface -/

/-- Doorbells, enabling, disabling and draining of a queue, the limit of an instance, a budget period and unmasking a
vector complete: what the doorbell covers moves, a doorbell beyond the ring halts the queue, EN starts a queue whose
configuration passes R350 with every index 0 and else sets CFG_ERR, and a drained queue discards what waits (R346, R348,
R350, R353, R355, R374 to R378). -/
def Obligations.QueueRegisters : Prop :=
  ∀ (inst : BitVec 8) (queue : BitVec 4) (s : State),
    let i := inst.toNat
    let q := queue.toNat
    let x := s.queue i q
    (∀ v : BitVec 16, PageOpen s i → x.st = .running ∨ x.st = .stalled →
      (let tail := x.recSq.getD x.sqTail
       let fits := (v - x.sqHead).toNat ≤ s.sqSize i q ∧ (v - tail).toNat ≤ s.sqSize i q
       let only (y : Queue) (t : State) : Prop := QueueIs i q y s t ∧ t = { s with instances := t.instances }
       (fits → (s.inst i).held = false → Runs (.sqDoorbell inst queue v) s fun t => ∃ y, only y t
          ∧ y = { x with sqTail := v, waits := false, aheadAt := 0, ahead := y.ahead })
       ∧ (fits → (s.inst i).held = true → x.recBad = [] → Runs (.sqDoorbell inst queue v) s (only { x with recSq := some v }))
       ∧ (¬ fits → (s.inst i).held = true → x.recBad = [] → Runs (.sqDoorbell inst queue v) s
            (only { x with recBad := [(false, v)] }))
       ∧ (¬ fits → (s.inst i).held = false → Runs (.sqDoorbell inst queue v) s fun t => ∃ y, QueueIs i q y s t
          ∧ y.st = .halted ∧ y.haltCause = 1 ∧ y.sqTail = x.sqTail ∧ y.sqHead = x.sqHead
          ∧ (∃ c, y.ready = x.ready ++ [c] ∧ c.status = 0x13 ∧ c.index = v ∧ c.ownPlace = true)
          ∧ Raised blkHiu 6 s t ∧ Signals { s with instances := t.instances } t))
      ∧ (let head := x.recCq.getD x.cqHead
         let fits := (x.cqTail - v).toNat ≤ s.cqSize i q ∧ (v - head).toNat ≤ (x.cqTail - head).toNat
         let only (y : Queue) (t : State) : Prop := QueueIs i q y s t ∧ t = { s with instances := t.instances }
         (fits → Runs (.cqDoorbell inst queue v) s
            (only (if (s.inst i).held then { x with recCq := some v } else { x with cqHead := v })))
         ∧ (¬ fits → (s.inst i).held = true → Runs (.cqDoorbell inst queue v) s
            (only { x with recBad := x.recBad ++ [(true, v)] }))
         ∧ (¬ fits → (s.inst i).held = false → Runs (.cqDoorbell inst queue v) s fun t =>
            QueueIs i q { x with st := .halted, haltCause := 2 } s t
            ∧ Raised blkHiu 8 s t ∧ Signals { s with instances := t.instances } t)))
    ∧ (∀ v : BitVec 16, PageOpen s i → x.st = .disabled →
      Runs (.sqDoorbell inst queue v) s (fun t => Signals s t ∧ Raised blkHiu 30 s t)
      ∧ Runs (.cqDoorbell inst queue v) s fun t => Signals s t ∧ Raised blkHiu 30 s t)
    ∧ (∀ value : BitVec 32, PageOpen s i → x.st = .disabled →
      Runs (.qpEnSet inst queue value) s fun t => t.reg (qpReg i q) = value &&& qpCfgMask
        ∧ (∀ a, a ≠ qpReg i q → t.reg a = s.reg a)
        ∧ QueueIs i q (if (s.setReg (qpReg i q) (value &&& qpCfgMask)).qpOk i q then x.start else { x with cfgErr := true }) s t
        ∧ t = { s with instances := t.instances, regs := t.regs })
    ∧ (∀ value : BitVec 32, PageOpen s i → x.st = .running ∨ x.st = .stalled ∨ x.st = .halted →
      Runs (.qpEnClear inst queue value) s fun t => QueueIs i q { x with st := .draining } s t
        ∧ Signals { s with instances := t.instances } t)
    ∧ (x.st = .draining → x.active = 0 →
      Runs (.queueDrainEnd inst queue) s fun t => ∃ y, QueueIs i q y s t ∧ y.st = .disabled ∧ y.ready = []
        ∧ y.cntDiscard = x.cntDiscard + BitVec.ofNat 32 x.ready.length ∧ t.keys = s.keys ∧ t.sch = s.sch ∧ t.regs = s.regs)
    ∧ (∀ value : BitVec 32, s.boot.ready = true →
      (s.allocSum - s.activeMax i + fld value 0 14 ≤ 8192 → Runs (.activeMaxWrite inst value) s fun t =>
        t.activeMax i = fld value 0 14 ∧ (∀ a, a ≠ instReg i + 8 → t.reg a = s.reg a) ∧ t = { s with regs := t.regs })
      ∧ (8192 < s.allocSum - s.activeMax i + fld value 0 14 → Runs (.activeMaxWrite inst value) s fun t =>
        t.regs = s.regs ∧ Raised blkHiu 11 s t ∧ Signals s t))
    ∧ (s.boot.ready = true → Runs .budgetPeriodEnd s fun t => ∃ u, TimeAt (s.budgetStart + 0x100000) s u
        ∧ t.budgetStart = s.budgetStart + 0x100000 ∧ (∀ j, t.inst j = { s.inst j with budgetUsed := 0 })
        ∧ t = { u with budgetStart := t.budgetStart, instances := t.instances })
    ∧ (∀ vector : BitVec 6, PageOpen s i → vector.toNat < vectors i →
      Runs (.msixUnmask inst vector) s fun t =>
        let e := s.msixOf i vector.toNat
        let sends := e.pend && !(s.inst i).held
        t.msixOf i vector.toNat = { e with masked := false, pend := if sends then false else e.pend }
        ∧ (∀ j v, v < 64 → (j ≠ i ∨ v ≠ vector.toNat) → t.msixOf j v = s.msixOf j v)
        ∧ t.hostMem = (if sends then wrBytes s.hostMem (e.addrLo.toNat + e.addrHi.toNat * 2 ^ 32) (natLe 4 e.data.toNat)
            else s.hostMem)
        ∧ t = { s with msix := t.msix, hostMem := t.hostMem })

/-- A descriptor is taken at SQ_HEAD, from a fresh read or from a copy read ahead: one that passes the checks of R22 becomes
a call with its reservations, and one that fails a check completes with the status of the first check it fails; one that comes
during an alarm or with a parity error completes so; a mark that does not match makes the queue wait for a doorbell; an entry
beyond SQ_TAIL is read ahead; a failed read of a covered entry halts the queue; and the oldest ready completion is written to
the ring with the bytes of R365 (R22, R358 to R366). -/
def Obligations.TakeAndComplete : Prop :=
  ∀ (inst : BitVec 8) (queue : BitVec 4) (s : State),
    let i := inst.toNat
    let q := queue.toNat
    let x := s.queue i q
    let size := s.sqSize i q
    (∀ (read entry : BitVec 512), s.mayFetch i q = true → x.due = true →
      x.copy x.sqHead = some entry ∨ (x.copy x.sqHead = none ∧ read = entry
        ∧ s.windowOk i (s.entryAddr i q x.sqHead) 64 false = true
        ∧ leAt (natLe 64 entry.toNat) 63 1 = phaseOf x.sqHead.toNat size) →
      let cls := fld (s.reg (qpReg i q)) 24 2
      let c := newCall i q x.sqHead (natLe 64 entry.toNat) cls s.sch.nextCall s.g
      let u := (s.setQueue i q { x with sqHead := x.sqHead + 1#16, notReady := x.notReady ++ [x.sqHead],
                                         ahead := x.ahead.filter fun e => e.1 != x.sqHead }).bump 0x200 1
      let ends (fault : TakeFault) (st : Nat) : Prop := s.batch i q = false →
        Runs (.descriptorTake inst queue read fault) s fun t =>
          (t.queue i q).sqHead = x.sqHead + 1#16 ∧ t.sch = s.sch ∧ t.keys = s.keys
          ∧ ∃ d, (t.queue i q).ready = x.ready ++ [d] ∧ d.index = x.sqHead ∧ d.status = st ∧ d.outBytes = 0
      (∀ p keys ctr v paired, s.alarm = false → Passes u c p paired → u.room q c p = .ok keys ctr v →
        Runs (.descriptorTake inst queue read .none) s fun t =>
          (t.queue i q).sqHead = x.sqHead + 1#16 ∧ (t.queue i q).notReady = x.notReady ++ [x.sqHead]
          ∧ (∃ d, t.call s.sch.nextCall = some d ∧ d.desc = natLe 64 entry.toNat ∧ d.okeys = keys ∧ d.counter = ctr
              ∧ d.paired = paired ∧ (d.st = .pool ∨ d.st = .keyOp))
          ∧ (∀ j, j ≠ s.sch.nextCall → t.call j = s.call j) ∧ (t.inst i).budgetUsed = (s.inst i).budgetUsed + 1
          ∧ t.keys = v.keys ∧ t.engines = s.engines ∧ t.hostMem = s.hostMem)
      ∧ (s.alarm = false → crc8 (c.desc.take 62) ≠ leAt c.desc 62 1 → ends .none 0x02)
      ∧ (s.alarm = false → crc8 (c.desc.take 62) = leAt c.desc 62 1 → u.plan c = none → ends .none 0x12)
      ∧ (∀ p, s.alarm = false → crc8 (c.desc.take 62) = leAt c.desc 62 1 → u.plan c = some p →
        let alone : Prop := (isMauOp c.opcode && mauUnpaired c.opcode && c.pairFlag) = true
        let fields : Prop := c.flags < 4 ∧ p.bad = false ∧ u.unusedSet c p = false
        let takes : Prop := (s.inst i).st ≠ .quiescing ∧ (s.inst i).st ≠ .quiesced
        let chains : Prop := c.opcode = 0xA9
          ∨ ∀ k ∈ p.keys, c.keyHandle k.num ≠ 0 → u.chainOk (hIndex (c.keyHandle k.num)) = true
        (alone → ends .none 0x12)
        ∧ (¬ alone → (¬ fields → ends .none 0x01)
        ∧ (fields → (¬ takes → ends .none 0x0C)
        ∧ (takes → (u.badHandle c p = true → ends .none 0x03)
        ∧ (u.badHandle c p = false → (¬ chains → ends .none 0x04)
        ∧ (chains → (u.denied c p = true → ends .none 0x05)
        ∧ (u.denied c p = false → (badLength c p = true → ends .none 0x0A)
        ∧ (badLength c p = false → (u.outsideWindows c = true → ends .none 0x10)
        ∧ (u.outsideWindows c = false → (∀ v, u.room q c p = .full v → ends .none 0x0B)
        ∧ (∀ keys ctr v, u.room q c p = .ok keys ctr v →
          (u.residentFor c (u.pairable c && (c.pairFlag || u.pairForce i)) = false → ends .none 0x0F)
          ∧ (u.residentFor c (u.pairable c && (c.pairFlag || u.pairForce i)) = true → c.pairFlag = true →
              u.pairable c = false → ends .none 0x12)))))))))))
      ∧ (s.alarm = true → ends .none 0x11) ∧ ends .descParity 0x09 ∧ ends .attrParity 0x09)
    ∧ (∀ (read : BitVec 512) (fault : TakeFault), s.mayFetch i q = true → x.due = true → x.copy x.sqHead = none →
      (s.windowOk i (s.entryAddr i q x.sqHead) 64 false = true →
        leAt (natLe 64 read.toNat) 63 1 ≠ phaseOf x.sqHead.toNat size →
        Runs (.descriptorTake inst queue read fault) s fun t => QueueIs i q { x with waits := true } s t
          ∧ t.reg 0x204 = s.reg 0x204 + 1#32 ∧ (∀ a, a ≠ 0x204 → t.reg a = s.reg a)
          ∧ t = { s with instances := t.instances, regs := t.regs })
      ∧ (s.windowOk i (s.entryAddr i q x.sqHead) 64 false = false →
        Runs (.descriptorTake inst queue read fault) s fun t => (t.queue i q).st = .halted ∧ (t.queue i q).haltCause = 3
          ∧ (t.queue i q).sqHead = x.sqHead ∧ Raised blkHiu 9 s t ∧ t.sch = s.sch ∧ t.keys = s.keys))
    ∧ (∀ (read : BitVec 512) (fault : TakeFault) (n : BitVec 16) (k : Nat), s.mayFetch i q = true → x.due = false →
      x.nextAhead = some (n, k) → s.windowOk i (s.entryAddr i q n) 64 false = true →
      leAt (natLe 64 read.toNat) 63 1 = phaseOf n.toNat size →
      Runs (.descriptorTake inst queue read fault) s fun t =>
        QueueIs i q { x with aheadAt := k, ahead := x.ahead ++ [(n, read)] } s t ∧ t = { s with instances := t.instances })
    ∧ (∀ error : ReadError, s.mayFetch i q = true → x.due = true → x.copy x.sqHead = none →
      Runs (.descriptorFetchFail inst ⟨queue, error⟩) s fun t => ∃ y, QueueIs i q y s t
        ∧ y.st = .halted ∧ y.haltCause = 3 ∧ y.sqHead = x.sqHead
        ∧ (∃ c, y.ready = x.ready ++ [c] ∧ c.status = 0x10 ∧ c.index = x.sqHead ∧ c.ownPlace = true)
        ∧ Raised blkHiu 12 s t ∧ Raised blkHiu (readSource error) s t ∧ Signals { s with instances := t.instances } t)
    ∧ (∀ (parity : Bool) c rest, x.ready = c :: rest → (s.inst i).held = false → x.writes = true →
      (x.cqTail - x.cqHead).toNat < s.cqSize i q →
      let a := s.cqBase i q + 32 * (x.cqTail.toNat % s.cqSize i q)
      let c := if parity then c.failed else c
      (s.windowOk i a 32 true = true →
        Runs (.completionWrite inst queue parity) s fun t => ∃ u, Signals s u ∧ (parity = false → u = s)
          ∧ (parity = true → Raised blkHiu 1 s u)
          ∧ (let e := u.msixOf i q
             let m := wrBytes u.hostMem a (cplBytes c q x.sqHead s.g (phaseOf x.cqTail.toNat (s.cqSize i q)))
             t.hostMem = (if s.irqFor i q c = true ∧ e.masked = false then
                 wrBytes m (e.addrLo.toNat + e.addrHi.toNat * 2 ^ 32) (natLe 4 e.data.toNat) else m)
             ∧ (s.irqFor i q c = true → e.masked = true → (t.msixOf i q).pend = true))
          ∧ (∃ y, QueueIs i q y s t ∧ y.ready = rest ∧ y.cqTail = x.cqTail + 1#16 ∧ y.cntDone = x.cntDone + 1#32
              ∧ y.st = (if x.st = .stalled ∧ rest.length ≤ 32 then .running else x.st))
          ∧ t.keys = s.keys ∧ t.sch = s.sch)
      ∧ (s.windowOk i a 32 true = false →
        Runs (.completionWrite inst queue parity) s fun t => (t.queue i q).haltCause = 4 ∧ (t.queue i q).ready = x.ready
          ∧ (t.queue i q).st = (if x.st = .draining then .draining else .halted) ∧ t.keys = s.keys ∧ t.sch = s.sch))

/-- The changes of an instance complete under the table of R384: quiescing, freezing and their ends, RESET leaves no entry
of the instance and QUIESCED, a Function Level Reset ends what does not run and returns the state it left, and the link and
the VFs come and go (R340, R376, R384 to R387, R402, R425). -/
def Obligations.InstanceStates : Prop :=
  ∀ (inst : BitVec 8) (s : State),
    let i := inst.toNat
    let x := s.inst i
    (s.boot.ready = true → x.st = .active → x.quiesce = false → Runs (.quiesceSet inst) s fun t =>
      t.inst i = { x with quiesce := true, st := if s.instActive i = 0 then .quiesced else .quiescing }
      ∧ (∀ j, j ≠ i → t.inst j = s.inst j) ∧ Signals { s with instances := t.instances } t)
    ∧ (s.boot.ready = true → x.st = .quiescing ∨ x.st = .quiesced → x.quiesce = true → Runs (.quiesceClear inst) s fun t =>
      t.inst i = { x with quiesce := false, st := .active } ∧ (∀ j, j ≠ i → t.inst j = s.inst j)
      ∧ t = { s with instances := t.instances })
    ∧ (x.st = .quiescing → s.instActive i = 0 → Runs (.quiesceDone inst) s fun t =>
      t.inst i = { x with st := .quiesced } ∧ (∀ j, j ≠ i → t.inst j = s.inst j) ∧ Raised blkHiu 25 s t
      ∧ Signals { s with instances := t.instances } t)
    ∧ (s.boot.ready = true → x.freeze = false → x.st ≠ .inFlr → Runs (.freezeSet inst) s fun t =>
      t.inst i = (if x.st = .quiesced then { x with freeze := true, st := .frozen } else { x with resetRefused := true })
      ∧ (x.st ≠ .quiesced → Raised blkHiu 11 s t) ∧ (∀ j, j ≠ i → t.inst j = s.inst j)
      ∧ Signals { s with instances := t.instances } t)
    ∧ (s.boot.ready = true → x.freeze = true → x.st = .frozen → x.restored = false → Runs (.freezeClear inst) s fun t =>
      (t.inst i).st = (if x.quiesce then .quiesced else .active) ∧ (t.inst i).freeze = false
      ∧ (∀ q, q < 16 → (s.queue i q).recBad = [] → t.queue i q = (s.queue i q).takeRecorded)
      ∧ (∀ q v, q < 16 → (s.queue i q).recBad = [(false, v)] →
          (t.queue i q).st = .halted ∧ (t.queue i q).haltCause = 1)
      ∧ (∀ q v, q < 16 → (s.queue i q).recBad = [(true, v)] → (s.queue i q).st ≠ .draining →
          (t.queue i q).st = .halted ∧ (t.queue i q).haltCause = 2)
      ∧ (∀ j, j ≠ i → t.inst j = s.inst j)
      ∧ ((∀ q, q < 16 → (s.queue i q).recBad = []) →
          (∀ v, v < vectors i → (s.msixOf i v).masked = false → (t.msixOf i v).pend = false)
          ∧ t = { s with instances := t.instances, msix := t.msix, hostMem := t.hostMem }))
    ∧ (s.boot.ready = true → x.st = .quiesced ∨ x.st = .frozen ∨ x.st = .saved → Runs (.instanceReset inst) s fun t =>
      (t.inst i).st = .quiesced ∧ (t.inst i).quiesce = true ∧ (t.inst i).freeze = false ∧ (t.inst i).queues = []
      ∧ (t.inst i).mbx = Mailbox.reset
      ∧ (∀ k, 256 ≤ k → (s.slot k).owner = i → (s.slot k).live = true → (t.slot k).live = false)
      ∧ (s.Canonical → ∀ k, (s.slot k).owner ≠ i → t.slot k = s.slot k) ∧ t.epoch i = (s.epoch i + 1) % 2 ^ 32
      ∧ (∀ j, j ≠ i → t.epoch j = s.epoch j) ∧ (∀ n ∈ t.bbram.nonces, n.inst ≠ i)
      ∧ ∀ j, j ≠ i → t.inst j = { s.inst j with mbx := (t.inst j).mbx })
    ∧ (s.boot.ready = true → s.present i = true → x.st ≠ .inFlr → Runs (.flrBegin inst) s fun t =>
      (t.inst i).st = .inFlr ∧ (t.inst i).flrFrom = x.st
      ∧ (∀ k c, s.call k = some c → c.inst = i → s.callRuns (k, c) = false → t.call k = none)
      ∧ ∀ j, j ≠ i → (t.inst j).st = (s.inst j).st)
    ∧ (x.st = .inFlr → (∀ k c, (k, some c) ∈ s.sch.calls → c.inst ≠ i) → x.heldCtrl = [] → Runs (.flrComplete inst) s fun t =>
      (t.inst i).st = (if x.flrFrom = .quiescing then .quiesced else x.flrFrom) ∧ (t.inst i).queues = []
      ∧ (t.inst i).mbx = Mailbox.reset ∧ (i ≠ 0 → ∀ v, v < 64 → t.msixOf i v = MsixEntry.reset)
      ∧ (∀ o, o < 0x400 → t.reg (pageBase i + 0x1000 + o) = regReset (pageBase i + 0x1000 + o))
      ∧ (∀ j, j ≠ i → t.inst j = s.inst j) ∧ Raised blkHiu 21 s t ∧ t.keys = s.keys)
    ∧ (∀ numVfs : BitVec 8, Runs (.vfEnableSet numVfs) s fun t =>
      t.link = { s.link with numVf := numVfs.toNat, vfEnable := true } ∧ t = { s with link := t.link }
      ∧ ∀ j, 0 < j → j ≤ numVfs.toNat → t.present j = true)
    ∧ (s.boot.ready = true → Runs .vfEnableClear s fun t => (∀ j, 0 < j → t.present j = false)
      ∧ (∀ j, 0 < j → j < 256 → (t.inst j).st = .inFlr) ∧ (t.inst 0).st = (s.inst 0).st)
    ∧ (s.boot.ready = true → Runs .linkDown s fun t => t.link.up = false ∧ t.link.width = 0 ∧ t.link.vfEnable = s.link.vfEnable
      ∧ ∀ j, j < 256 → (t.inst j).st = .inFlr)
    ∧ (s.boot.ready = false → Runs .linkDown s fun t => t.link.up = false ∧ Raised blkHiu 19 s t
      ∧ Signals { s with link := { s.link with up := false, flit := false, speed := 0, width := 0 } } t)
    ∧ (∀ (speed : BitVec 4) (width : BitVec 5) (flit : Bool), linkOk speed.toNat width.toNat flit = true →
      Runs (.linkTrained speed width flit) s fun t =>
      t.link = { s.link with up := true, flit := flit, speed := speed.toNat, width := width.toNat }
      ∧ (speed.toNat < 6 ∨ width.toNat < 16 → Raised blkHiu 20 s t) ∧ Signals { s with link := t.link } t)

/-! ## Keys -/

/-- The key-table operations complete OK at their turn: a generated or loaded key fills its entry, a destroyed entry is
live no more, KEY_INFO writes its 32 bytes, KEY_RESTRICT lowers ATTR, KEY_EXPORT and KEY_SAVE write what they seal, and no
other entry changes (R422, R434 to R446). -/
def Obligations.KeyOperations : Prop :=
  ∀ (call : BitVec 32) (c : Call) (s : State),
    let k := call.toNat
    let i := hIndex (c.keyHandle 0)
    let others (t : State) : Prop := ∀ j, j ≠ i → t.slot j = s.slot j
    (∀ o b u, AtTurn s k 0xA8 c → c.okeys = [o] → o.num = 0 → s.drawKey (c.pbyte 1) = some (b, u) →
      (s.slot o.slot).klen ≤ 32 →
      Runs (.keyGenerate call) s fun t => (t.slot o.slot).st = .valid
        ∧ t.inlineKey o.slot = (padTo 32 b).take (s.slot o.slot).klen
        ∧ (∀ j, j ≠ o.slot → t.slot j = s.slot j) ∧ Completed k c 0 0 (s.handleOf o.slot) s t ∧ t.ent = u.ent)
    ∧ (s.call k = some c → c.st = .keyOp → c.opcode = 0xA9 → Direct s c → c.keyHandle 0 ≠ 0 →
      s.handleOk c.inst (c.keyHandle 0) = true →
      (c.aux.testBit 0 = false → Runs (.keyDestroy call) s fun t => (t.slot i).live = false ∧ others t
        ∧ t.keys.cntDestroy = s.keys.cntDestroy + 1#32
        ∧ t.epoch c.inst = (if c.aux.testBit 1 then (s.epoch c.inst + 1) % 2 ^ 32 else s.epoch c.inst)
        ∧ Completed k c 0 0 0 s t)
      ∧ (c.aux.testBit 0 = true → (s.slot i).rctr ≠ 0xFFFF → s.ctrAlive i = true → Runs (.keyDestroy call) s fun t =>
        (∀ j, 256 ≤ j → (s.slot j).live = true → (s.slot j).rctr = (s.slot i).rctr → (t.slot j).live = false)
        ∧ (c.counter = none → t.ctr (s.slot i).rctr = ResCounter.reset) ∧ Completed k c 0 0 0 s t))
    ∧ (AtTurn s k 0xAA c → s.windowOk c.inst c.outAddr 32 true = true → Runs (.keyInfo call) s fun t =>
      t.hostMem = wrBytes s.hostMem c.outAddr (s.keyInfo i) ∧ t.keys = s.keys ∧ Completed k c 0 32 0 s t)
    ∧ (let a : W32 := BitVec.ofNat 32 (leAt c.param 0 4)
      AtTurn s k 0xAB c → a &&& ~~~(s.slot i).attr = 0#32 → userDenied a = false → s.attrOk a (s.slot i).type = true →
      Runs (.keyRestrict call) s fun t => t.slot i = { s.slot i with attr := a } ∧ others t ∧ Completed k c 0 0 0 s t)
    ∧ (∀ (records : List HostRead) key wk s1 s2, AtTurn s k 0xAC c → bit32 (s.slot i).attr 31 = true →
      (s.slot (hIndex (c.keyHandle 1))).type = 0x02 → bit32 (s.slot (hIndex (c.keyHandle 1))).attr uWrap = true →
      s.readFor c 0 records = .ok key s1 → s1.readFor c 1 records = .ok wk s2 →
      let n := 8 * ((8 + (s.slot i).klen + 7) / 8) + 8
      s2.windowOk c.inst c.outAddr n true = true → Direct s2 c →
      Runs (.keyExport call records) s fun t =>
        t.hostMem = wrBytes s2.hostMem c.outAddr (padTo n (aesWrap wk (exportPlain (s.slot i) key)))
        ∧ t.keys.slots = s2.keys.slots ∧ t.keys.cntExport = s2.keys.cntExport + 1#32 ∧ Completed k c 0 n 0 s2 t)
    ∧ (∀ (input : HostRead) b s1 o u, AtTurn s k 0xAD c → s.readInput c input = (some b, s1) →
      publicKeyOk (c.pbyte 0) (c.pbyte 1) b = true → c.okeys = [o] → o.num = 0 → s1.fillSlot o.slot b = some u → Direct u c →
      Runs (.keyPublicLoad call input) s fun t => t.keys = u.keys ∧ t.dram = u.dram
        ∧ Completed k c 0 0 (u.handleOf o.slot) u t)
    ∧ (∀ (records : List HostRead) key r seq s1 s2, AtTurn s k 0xAE c → s.readFor c 0 records = .ok key s1 →
      s1.sealOut i (!c.aux.testBit 0) key = some (r, seq, s2) → s2.windowOk c.inst c.outAddr r.length true = true →
      Direct s2 c →
      (c.aux.testBit 0 = false → bit32 (s.slot i).attr 30 = true → Runs (.keySave call records) s fun t =>
        t.hostMem = wrBytes s2.hostMem c.outAddr r ∧ t.keys = s2.keys ∧ Completed k c 0 r.length 0 s2 t)
      ∧ (c.aux.testBit 0 = true → (s.slot i).loc = 1 → Runs (.keySave call records) s fun t =>
        t.hostMem = wrBytes s2.hostMem c.outAddr r
        ∧ t.slot i = { s2.slot i with loc := 2, addr := c.outAddr, rlen := r.length, seq := seq }
        ∧ (∀ j, j ≠ i → t.slot j = s2.slot j) ∧ Completed k c 0 r.length 0 s2 t))
    ∧ (∀ input : HostRead, AtTurn s k 0xAF c → c.keyHandle 0 ≠ 0 → (s.slot i).st ≠ .lost → c.okeys = [] →
      Runs (.keyLoad call input) s fun t => (∀ j, t.slot j = s.slot j) ∧ Completed k c 0x05 0 0 s t)
    ∧ (∀ (input : HostRead) b s1 r, AtTurn s k 0xAF c → s.readInput c input = (some b, s1) →
      s1.openSaved c.inst b = some r → s1.savedCtrOk r = true → c.okeys = [] →
      (∀ s2 n u, c.keyHandle 0 = 0 → s1.entryRoom c.inst r.klen = (some n, s2) →
        let p := s2.parentHandle c.inst (c.keyHandle 1)
        let e : KeySlot := { dfltSlot n with
          type := r.type, owner := c.inst, set := r.set, depth := s2.depthUnder p, parent := p, attr := r.attr
          klen := r.klen, rctr := r.rctr, treeTag := if r.rctr = 0xFFFF then 0 else r.tag }
        s2.makeEntry n (e.shaped r.key) r.key = some u → Direct u c →
        Runs (.keyLoad call input) s fun t => t.keys = u.keys ∧ t.dram = u.dram ∧ Completed k c 0 0 (u.handleOf n) u t)
      ∧ (∀ u, c.keyHandle 0 ≠ 0 → (s.slot i).st = .lost → r.handle = c.keyHandle 0 →
        (s1.setSlot i { s1.slot i with bleft := 0, next := 0, bad := false }).fillSlot i (padTo (s1.slot i).klen r.key) = some u →
        Direct u c →
        Runs (.keyLoad call input) s fun t => t.keys = u.keys ∧ t.dram = u.dram ∧ Completed k c 0 0 (u.handleOf i) u t))

/-- The events of the key subsystem complete: a sweep pass starts under a fresh seed, a step re-masks one inline key
without changing it or reclaims an orphan, the BBRAM roots keep their values under fresh shares, the Supervisor reads one
share of a key and not the other, and the vault opens, and closes while nothing lies in it (R29, R405, R417 to R424,
R427). -/
def Obligations.KeyUpkeep : Prop :=
  ∀ (s : State),
    (s.boot.ready = true → s.keys.sweepAt = none →
      (∀ x u, s.draw256 = some (x, u) → Runs .sweepPassStart s fun t => ∃ v, TimeAt s.keys.sweepDue s v
        ∧ t = { v with ent := u.ent, keys := { s.keys with
            sweepDue := s.keys.sweepDue + 390625000, newSeed := x, sweepAt := some 0 } })
      ∧ (s.draw256 = none → Runs .sweepPassStart s fun t => t.keys.sweepAt = none ∧ t.keys.skips = (s.keys.skips + 1) % 65536
        ∧ t.keys.slots = s.keys.slots ∧ t.keys.sweepSeed = s.keys.sweepSeed ∧ Raised blkKt 6 s t))
    ∧ (∀ p i rest, s.keys.sweepAt = some p → (s.keys.slots.filter fun e => decide (p ≤ e.1)).map (·.1) = i :: rest →
      256 ≤ i → (s.slot i).live = true → (s.slot i).loc = 0 →
      (s.chainOk i = true → (s.slot i).bad = false → Runs .sweepStep s fun t => t.keys.sweepAt = some (i + 1)
        ∧ t.inlineKey i = s.inlineKey i ∧ (t.slot i).token = none ∧ (t.slot i).attr = (s.slot i).attr
        ∧ (t.slot i).st = (s.slot i).st ∧ (∀ j, j ≠ i → t.slot j = s.slot j) ∧ t = { s with keys := t.keys })
      ∧ (s.chainOk i = false → Runs .sweepStep s fun t => (t.slot i).live = false ∧ t.keys.sweepAt = some (i + 1)
        ∧ t.keys.cntReclaim = s.keys.cntReclaim + 1#32 ∧ ∀ j, j ≠ i → t.slot j = s.slot j))
    ∧ (∀ p, s.keys.sweepAt = some p → (∀ e ∈ s.keys.slots, e.1 < p) → Runs .sweepStep s fun t =>
      t.keys.sweepAt = none ∧ t.keys.sweepSeed = s.keys.newSeed ∧ t.keys.passes = (s.keys.passes + 1) % 65536
      ∧ (∀ j, j < p → t.inlineKey j = s.inlineKey j) ∧ t = { s with keys := t.keys })
    ∧ (∀ x u, s.boot.ready = true → s.draw = some (x, u) → Runs .bbramRemask s fun t =>
      t.bbram.krOwn.map Root.val = s.bbram.krOwn.map Root.val ∧ t.bbram.krRma.map Root.val = s.bbram.krRma.map Root.val
      ∧ t.bbram.krOwn.map (·.share0) = s.bbram.krOwn.map (fun r => r.share0 ^^^ x.setWidth 256)
      ∧ t.keys.remaskDue = s.keys.remaskDue + 2343750000 ∧ t.keys.slots = s.keys.slots)
    ∧ (∀ share : Bool,
      let h := (s.reg 0x504000).toNat
      let i := hIndex h
      let e := s.slot i
      256 ≤ i → e.gen = hGen h → e.st = .valid → e.loc = 0 →
      (e.token = none ∨ e.token = some (b2n share) → Runs (.supShareRead share) s fun t =>
        t.keys.supData = s.shareOf i share ∧ t.slot i = { e with token := some (b2n share) }
        ∧ (∀ j, j ≠ i → t.slot j = s.slot j) ∧ t.faults = s.faults)
      ∧ (e.token = some (1 - b2n share) → Runs (.supShareRead share) s fun t =>
        t.keys.supData = List.replicate 32 0#8 ∧ t.keys.slots = s.keys.slots ∧ Raised blkKt 5 s t))
    ∧ (s.boot.ready = true → Runs (.vaultEnWrite true) s (fun t => t.vaultEn = true ∧ t = { s with regs := t.regs })
      ∧ (s.vaultUsed = [] → Runs (.vaultEnWrite false) s fun t => t.vaultEn = false ∧ t = { s with regs := t.regs })
      ∧ (s.vaultUsed ≠ [] → s.vaultEn = true → Runs (.vaultEnWrite false) s fun t =>
        t.vaultEn = true ∧ Raised blkKt 11 s t ∧ Signals s t))

/-! ## Mailbox -/

/-- The mailbox and its commands complete: GO passes a message on or is refused, an answer, or after 10 s the answer
ABORTED, lands in MBX_OUT, and a command at its turn gets the answer of its row (R379 to R383, R389 to R393, R440, R470,
R633, R669). -/
def Obligations.MailboxCommands : Prop :=
  ∀ (inst : BitVec 8) (s : State),
    let i := inst.toNat
    let m := (s.inst i).mbx
    (PageOpen s i →
      (m.busy = false → m.outValid = false → Runs (.mbxDoorbellGo inst) s fun t =>
        (t.inst i).mbx.busy = true ∧ (t.inst i).mbx.sentAt = s.g
        ∧ (t.inst i).mbx.answer = (if (mbxLen m.cmd).isNone then some (0x12, []) else none)
        ∧ (∀ j, j ≠ i → t.inst j = s.inst j) ∧ t = { s with instances := t.instances })
      ∧ (m.busy = true ∨ m.outValid = true → Runs (.mbxDoorbellGo inst) s fun t =>
        t.inst i = { s.inst i with mbx := { m with overrun := true } } ∧ Raised blkHiu 23 s t
        ∧ Signals { s with instances := t.instances } t))
    ∧ (∀ st p, m.answer = some (st, p) → (s.inst i).st ≠ .inFlr → Runs (.mailboxAnswer inst false) s fun t =>
      Landed i st p s t ∧ t = { s with instances := t.instances, msix := t.msix, hostMem := t.hostMem })
    ∧ (m.busy = true → (s.inst i).st ≠ .inFlr → Runs (.mailboxAnswer inst true) s fun t => Landed i 0x08 [] s t
      ∧ Raised blkSup 1 s t)
    ∧ (m.busy = true → m.answer = none → (s.inst i).st ≠ .inFlr → Runs (.mailboxTimeout inst) s fun t =>
      Landed i 0x08 [] s t ∧ Raised blkHiu 24 s t ∧ t.g = max s.g (m.sentAt + 390625000))
    ∧ (Asked s i 0x01 → Runs (.getVersions inst) s fun t => Answered i 0 s.versions s t ∧ t = { s with instances := t.instances })
    ∧ (let buf (cmd : Nat) (c : Instr) (o : Nat) (data : Bytes) : Prop := Asked s i cmd →
        (bufLen m.payload o < data.length → Runs c s fun t => Answered i 0x0A (natLe 4 data.length) s t
          ∧ t = { s with instances := t.instances })
        ∧ (data.length ≤ bufLen m.payload o → s.windowOk i (bufAddr m.payload o) data.length true = true →
          Runs c s fun t => Answered i 0 [] s t ∧ t.hostMem = wrBytes s.hostMem (bufAddr m.payload o) data
            ∧ t = { s with instances := t.instances, hostMem := t.hostMem })
       buf 0x02 (.getIdentity inst) 0 s.certChain
       ∧ buf 0x03 (.attest inst) 32 (s.report 0 (m.payload.take 32)))
    ∧ (∀ w u,
      let n := leAt m.payload 0 1
      Asked s i 0x20 → 1 ≤ n → n ≤ 248 → s.ent.mode ≠ .halted → s.supWords ((n + 3) / 4) 8 = some (w, u) →
      Runs (.getRandom inst) s fun t => Answered i 0 ((w.flatMap fun x => natLe 4 x.toNat).take n) s t
        ∧ t = { s with instances := t.instances, ent := u.ent })
    ∧ (∀ (message record : HostRead) b tk key n s1 s2 s3 s4, Asked s i 0x04 →
      s.readBuf i (bufAddr m.payload 0) (bufLen m.payload 0) message = (some b, s1) → s1.importRefusal i b = none →
      (let r := s1.hostRec i (hIndex (leAt b 56 4)) record
       r.2.readKey (hIndex (leAt b 56 4)) r.1 = .ok tk s2) → unwrapImport b tk = some key →
      s2.entryRoom i key.length = (some n, s3) → s3.makeEntry n (s3.importEntry i b key n) key = some s4 →
      leAt b 44 4 ≠ 0xFFFFFFFF →
      Runs (.keyImport inst message record) s fun t => Answered i 0 (natLe 4 (s4.handleOf n)) s4 t
        ∧ t.keys = { s4.keys with cntImport := s4.keys.cntImport + 1#32 } ∧ t.bbram = { s4.bbram with importCtr := leAt b 44 4 })
    ∧ (let j := leAt m.payload 0 1
      ∀ x u, Asked s i 0x10 → s.targetOk j = true → (s.nonceOf j ≠ none ∨ s.bbram.nonces.length < 4) →
      s.ent.mode ≠ .halted → s.draw = some (x, u) →
      let v := natLe 32 x.toNat
      Runs (.hamperPrepare inst) s fun t => Answered i 0 (s.targetId ++ v) s t ∧ t.nonceOf j = some v
        ∧ (∀ x, x ≠ j → t.nonceOf x = s.nonceOf x) ∧ t.ent = u.ent ∧ t.keys = s.keys)
    ∧ (let j := leAt m.payload 0 1
      ∀ (records : List HostRead) body s1 iv s2, Asked s i 0x11 → j ≠ 0 → (s.inst j).st = .frozen → s.dge.wait = [] →
      s.entryRecords j (s.ownedEntries j) records
        (((List.range 16).flatMap fun q => s.queueRecord j q) ++ natLe 1 (s.inst j).mbx.seq) = (.inl body, s1) →
      144 + body.length ≤ bufLen m.payload 65 → s1.windowOk i (bufAddr m.payload 65) (144 + body.length) true = true →
      s1.takeIv = some (iv, s2) → s1.instances = s.instances → s1.dge = s.dge → s1.Canonical →
      Runs (.hamperSave inst records) s fun t => (t.inst i).mbx.answer = some (0, natLe 4 (144 + body.length))
        ∧ (t.inst j).st = .saved ∧ (∀ k, 256 ≤ k → (s1.slot k).owner = j → (t.slot k).live = false)
        ∧ (∀ k, (s1.slot k).owner ≠ j → t.slot k = s1.slot k)
        ∧ ∀ x, x ≠ i → x ≠ j → t.inst x = s.inst x)
    ∧ (let j := leAt m.payload 0 1
      ∀ (hamper : HostRead) b body s1 acc u, Asked s i 0x12 → s.targetOk j = true →
      s.readBuf i (bufAddr m.payload 1) (bufLen m.payload 1) hamper = (some b, s1) → s1.openHamper j b = some body →
      s1.restoreRoom j (leAt b 104 4) (body.drop (queuesLen 16 body + 1)) = none →
      (ctrsNeeded (leAt b 104 4) (body.drop (queuesLen 16 body + 1))).length ≤ s1.freeCtrs →
      s1.restoreEntries j { slots := [], ctrs := [] } (leAt b 104 4) (body.drop (queuesLen 16 body + 1)) = .ok (acc, u) →
      u.instances = s.instances →
      Runs (.hamperRestore inst hamper) s fun t => (t.inst i).mbx.answer = some (0, [])
        ∧ (t.inst j).restored = true ∧ (t.inst j).st = .frozen ∧ (t.inst j).mbx.seq = leAt body (queuesLen 16 body) 1
        ∧ t.nonceOf j = none ∧ ∀ x, x ≠ i → x ≠ j → t.inst x = s.inst x)

/-! ## Entropy -/

/-- The events of the entropy subsystem complete: sources start, pass, fail, wait and restart under R454, the mode follows
the passing sources, a block forms at full credit and feeds one waiting instance, a request advances its instance and the
4,096th asks for a reseed, and the ports and the IV reserve refill and drain (R451 to R472). -/
def Obligations.Entropy : Prop :=
  ∀ (s : State),
    (∀ katOk : Bool, s.ent.started = false → s.lcc.decoded = true → s.boot.halted = false → s.ent.mode = .startup →
      Runs (.entStart katOk) s fun t => t.ent.started = true ∧ t.ent.katOk = katOk
        ∧ (∀ n, n < 4 → t.src n = { s.src n with st := .startup, since := s.g + 391 })
        ∧ t.ent.mode = (if katOk then .startup else .halted) ∧ (katOk = false → Raised blkEnt 6 s t))
    ∧ (∀ (src : BitVec 2) (apt : BitVec 11), (s.src src.toNat).st = .pass → apt.toNat < 965 →
      Runs (.startupTestPass src apt) s fun t => t.src src.toNat = { s.src src.toNat with aptMax := apt.toNat }
        ∧ (∀ m, m ≠ src.toNat → t.src m = s.src m) ∧ t = { s with ent := t.ent })
    ∧ (∀ (src : BitVec 2) (apt : BitVec 11), (s.src src.toNat).st = .startup → apt.toNat < 965 →
      Runs (.startupTestPass src apt) s fun t =>
        (t.src src.toNat).st = .pass ∧ (t.src src.toNat).aptMax = apt.toNat
        ∧ (∀ m, m < 4 → m ≠ src.toNat → (t.src m).st = (s.src m).st)
        ∧ t.g = max s.g ((s.src src.toNat).since + 4000)
        ∧ (s.ent.mode = .startup → s.ent.katFail = false → 2 ≤ t.passing →
            t.ent.mode = (if t.passing = 4 then .full else .degraded)))
    ∧ (∀ (src : BitVec 2) (apt : Bool),
      let x := s.src src.toNat
      x.st = .startup ∨ x.st = .pass → Runs (.sourceHealthFail src apt) s fun t =>
        let y := t.src src.toNat
        y.st = .failed ∧ y.fails = min 15 (x.fails + 1) ∧ y.since = s.g
        ∧ y.cause = (if x.st = .startup then 3 else if apt then 2 else 1)
        ∧ (x.st = .pass → t.ent.block = none ∧ ∀ m, (t.src m).credit = 0) ∧ (x.st = .startup → t.ent.block = s.ent.block)
        ∧ t.ent.srcFails = s.ent.srcFails + 1#32 ∧ Raised blkEnt src.toNat s t
        ∧ (s.ent.mode = .full ∨ s.ent.mode = .degraded → t.passing < 2 → t.ent.mode = .halted
            ∧ ∀ d, (t.drbg d).st ≠ .serving))
    ∧ (∀ src : BitVec 2, (s.src src.toNat).st = .failed → Runs (.sourceRetry src) s fun t =>
        (t.src src.toNat).st = (if (s.src src.toNat).fails ≤ 3 then .startup else .disabled)
        ∧ (∀ m, m ≠ src.toNat → t.src m = s.src m) ∧ t.g = max s.g ((s.src src.toNat).since + 39062500))
    ∧ (∀ mask : BitVec 4, s.boot.ready = true → Runs (.sourceRestart mask) s fun t =>
        (∀ n, n < 4 → mask.getLsbD n = false → (t.src n).st = (s.src n).st ∧ (t.src n).fails = (s.src n).fails)
        ∧ ∀ n, n < 4 → mask.getLsbD n = true → (s.src n).st ≠ .off → (t.src n).st = .startup
          ∧ ((s.src n).st = .failed ∨ (s.src n).st = .disabled → (t.src n).fails = 0))
    ∧ (∀ (bits : BitVec 512) (x : Nat), s.ent.block = none →
      ((List.range 3751).find? fun y => decide (240000 ≤ s.settle.totalAfter y)) = some x →
      Runs (.entropyBlockFormed bits) s fun t => t.ent.block = some bits ∧ (∀ m, (t.src m).credit = 0)
        ∧ (∀ m, (t.src m).st = (s.src m).st) ∧ t.g = s.g + x)
    ∧ (∀ (drbg : BitVec 4) (b : BitVec 512), s.ent.block = some b → s.ent.mode = .full ∨ s.ent.mode = .degraded →
      s.nextWaiting = some drbg.toNat → s.boot.bootIdDue = false →
      let takes (c : Instr) (w : BitVec 512) : Prop := Runs c s fun t =>
        (s.ent.waiting = 0 → t.drbg drbg.toNat = { st := .serving, work := w, reqs := 0 }
          ∧ ∀ m, m ≠ drbg.toNat → t.drbg m = s.drbg m)
        ∧ t.ent.waiting ≤ s.ent.waiting
        ∧ t.ent.block = none ∧ t.ent.reseeds = s.ent.reseeds + 1#32 ∧ t = { s with ent := t.ent }
      ((s.drbg drbg.toNat).st = .uninst → takes (.drbgInstantiate drbg)
        (drbgInst b (natLe 1 drbg.toNat ++ natLe 7 0 ++ natLe 8 s.otp.serial.toNat)))
      ∧ ((s.drbg drbg.toNat).st = .reseeding → takes (.drbgReseed drbg) (drbgReseed (s.drbg drbg.toNat).work b)))
    ∧ (∀ n, s.servingDrbg = some n → Runs .drbgRequest s fun t =>
        t.drbg n = { st := if 4096 ≤ (s.drbg n).reqs + 1 then .reseeding else .serving
                     work := drbgNext 512 (s.drbg n).work, reqs := (s.drbg n).reqs + 1 }
        ∧ (∀ m, m ≠ n → t.drbg m = s.drbg m) ∧ t.ent.requests = s.ent.requests + 1#32 ∧ t = { s with ent := t.ent })
    ∧ (s.servingDrbg = none → s.ent.mode ≠ .halted → Runs .drbgRequest s fun t =>
        t = { s with ent := { s.ent with waiting := s.ent.waiting + 1 } })
    ∧ (s.servingDrbg = none → s.ent.mode = .halted → Runs .drbgRequest s fun t =>
        t = { s with ent := { s.ent with denied := s.ent.denied + 1#32 } })
    ∧ (∀ drbg : BitVec 4, Runs (.drbgParity drbg) s fun t => t.drbg drbg.toNat = Drbg.reset
        ∧ (∀ m, m ≠ drbg.toNat → t.drbg m = s.drbg m) ∧ Raised blkEnt 7 s t ∧ Signals { s with ent := t.ent } t)
    ∧ (∀ sup : Bool, sup = true ∨ s.boot.ready = true →
      (∀ w rest, s.ent.buf sup = w :: rest → Runs (.swDataRead sup) s fun t =>
        t = { s with rdata := w, ent := s.ent.setBuf sup rest })
      ∧ (s.ent.buf sup = [] → Runs (.swDataRead sup) s fun t => t.rdata = 0#32 ∧ Raised blkEnt 8 s t
        ∧ Signals { s with rdata := 0#32 } t))
    ∧ (∀ (sup : Bool) (x : BitVec 512) (u : State), s.ent.buf sup = [] → s.ent.mode ≠ .halted → s.draw = some (x, u) →
      Runs (.swBufferRefill sup) s fun t => (t.ent.buf sup).length = 16
        ∧ (∀ k, k < 16 → (t.ent.buf sup).getD k 0#32 = BitVec.ofNat 32 (x.toNat / 2 ^ (32 * k)))
        ∧ t.ent.buf (!sup) = s.ent.buf (!sup) ∧ t = { s with ent := t.ent })
    ∧ (∀ (x : BitVec 512) (u : State), s.ent.ivs.length ≤ 123 → s.draw = some (x, u) →
      Runs .ivReserveRefill s fun t => t.ent.ivs.length = s.ent.ivs.length + 5
        ∧ t.ent.ivs.take s.ent.ivs.length = s.ent.ivs ∧ t = { s with ent := t.ent })

/-! ## Digests and DMA -/

/-- The digest commands and events complete: a context opens, is given a buffer, is finished and closed through the mailbox
or through its registers, a job's end leaves the context OPEN with what it absorbed or DONE with the digest and the
compare pair, a unit switches to the head of the wait list, and saving is enabled where no region or context is in the way
(R478 to R489). -/
def Obligations.Digests : Prop :=
  ∀ (s : State),
    let joins (k : Nat) (u : Nat) (j : DgeJob) (t : State) : Prop :=
      t.ctx k = { s.ctx k with st := .run, job := some j, result := (t.ctx k).result }
      ∧ (∀ x, x ≠ k → t.ctx x = s.ctx x) ∧ t.dge.units = s.dge.units ++ [(u, k)] ∧ t.dge.wait = s.dge.wait
    let opens (k alg declen : Nat) (t : State) : Prop :=
      t.ctx k = { DgeCtx.reset with st := .opened, alg := alg, declen := declen, saves := (s.ctx k).saves }
      ∧ ∀ x, x ≠ k → t.ctx x = s.ctx x
    let closes (k : Nat) (t : State) : Prop :=
      t.ctx k = { DgeCtx.reset with saves := (s.ctx k).saves } ∧ ∀ x, x ≠ k → t.ctx x = s.ctx x
    (∀ inst : BitVec 8,
      let i := inst.toNat
      let p := (s.inst i).mbx.payload
      let k := 8 * i + leAt p 0 1
      leAt p 0 1 < 8 →
      (Asked s i 0x28 → leAt p 2 2 = 0 → (s.ctx k).st = .free ∨ (s.ctx k).st = .done → digestBlock (leAt p 1 1) ≠ none →
        leAt p 4 8 ≤ digestMax (leAt p 1 1) → s.saveEn = true →
        Runs (.digestOpen inst) s fun t => opens k (leAt p 1 1) (leAt p 4 8) t ∧ Answered i 0 [] s t
          ∧ t.cx64 k 0x08 = leAt p 4 8)
      ∧ (∀ u, Asked s i 0x29 → leAt p 1 3 = 0 → (s.ctx k).st = .opened → (s.ctx k).saved = false → bufLen p 4 ≤ 0x10000000 →
        s.dge.freeUnit = some u →
        Runs (.digestUpdate inst) s fun t => joins k u { finish := false, viaMbx := true, addr := bufAddr p 4
                                                         len := bufLen p 4, last := [], cmp := false, expect := []
                                                         outLen := 0, outAddr := 0, pos := 0 } t
          ∧ (t.inst i).mbx.taken = true ∧ (t.inst i).mbx.answer = none)
      ∧ (∀ (last : HostRead) b s1 u, Asked s i 0x2A → leAt p 1 1 < 2 → isShake (s.ctx k).alg = false → leAt p 2 2 = 0 →
        leAt p 16 12 = 0 → (s.ctx k).st = .opened → (s.ctx k).saved = false → bufLen p 4 ≤ 0x10000000 →
        s.dge.freeUnit = some u →
        (let v := lastBytes (bufLen p 4)
         s.readBuf i (bufAddr p 4 + bufLen p 4 - v) v last = (some b, s1)) →
        Runs (.digestFinal inst last) s fun t => ∃ j, joins k u j t ∧ j.finish = true ∧ j.viaMbx = true ∧ j.last = b
          ∧ j.len + lastBytes (bufLen p 4) = bufLen p 4 ∧ j.cmp = (leAt p 1 1 == 1) ∧ j.expect = (p.drop 28).take 64
          ∧ (t.inst i).mbx.taken = true ∧ (t.inst i).mbx.answer = none)
      ∧ (Asked s i 0x2B → (s.ctx k).st = .opened ∨ (s.ctx k).st = .done →
        Runs (.digestClose inst) s fun t => closes k t ∧ Answered i 0 [] s t))
    ∧ (∀ (inst : BitVec 8) (ctx : BitVec 3), s.boot.ready = true →
      let k := 8 * inst.toNat + ctx.toNat
      (∀ alg : BitVec 4, (s.ctx k).st = .free ∨ (s.ctx k).st = .done → digestBlock alg.toNat ≠ none →
        s.cx64 k 0x08 ≤ digestMax alg.toNat → s.saveEn = true →
        Runs (.dgeCxOpen inst ctx alg) s fun t => opens k alg.toNat (s.cx64 k 0x08) t ∧ t = { s with dge := t.dge })
      ∧ (∀ u, (s.ctx k).st = .opened → (s.ctx k).saved = false → (s.reg (dgePage k + 0x18)).toNat ≤ 0x10000000 →
        s.dge.freeUnit = some u →
        Runs (.dgeCxUpdate inst ctx) s (fun t => joins k u (s.cxJob k false) t ∧ (t.ctx k).result = 0
          ∧ t = { s with dge := t.dge })
        ∧ (fld (s.reg (dgePage k + 0x30)) 0 4 ≤ 8 →
          (isShake (s.ctx k).alg = true → 1 ≤ fld (s.reg (dgePage k + 0x30)) 16 13 ∧ fld (s.reg (dgePage k + 0x30)) 16 13 ≤ 4096) →
          (isShake (s.ctx k).alg = false → fld (s.reg (dgePage k + 0x30)) 16 13 = 0) →
          Runs (.dgeCxFinish inst ctx) s fun t => joins k u (s.cxJob k true) t ∧ (t.ctx k).result = 0
            ∧ t = { s with dge := t.dge }))
      ∧ ((s.ctx k).st = .opened ∨ (s.ctx k).st = .done →
        Runs (.dgeCxClose inst ctx) s fun t => closes k t ∧ t = { s with dge := t.dge })
      ∧ ((s.ctx k).st = .run → Runs (.dgeCxClose inst ctx) s fun t =>
        t.ctx k = { s.ctx k with result := 5 } ∧ Raised blkDge 5 s t))
    ∧ (∀ (unit : BitVec 4) (k u : Nat) (j : DgeJob) (b : Bytes),
      let rest := j.len - j.pos
      let c := (s.ctx k).absorb (padTo rest b ++ j.last)
      (s.dge.units.find? fun p => p.1 == unit.toNat) = some (u, k) → (s.ctx k).job = some j → s.dge.wait = [] →
      s.windowOk (k / 8) (j.addr + j.pos) rest false = true →
      (j.finish = false → Runs (.digestJobEnd unit (.ok b) 0#2) s fun t =>
        (t.ctx k).st = .opened ∧ (t.ctx k).rcvd = (s.ctx k).rcvd + rest + j.last.length ∧ (t.ctx k).msg = c.msg
        ∧ (t.ctx k).job = none ∧ (t.ctx k).saved = true ∧ (t.ctx k).saves = (s.ctx k).saves + 1
        ∧ (∀ x, x ≠ k → t.ctx x = s.ctx x) ∧ ∀ p ∈ t.dge.units, p.1 ≠ unit.toNat)
      ∧ (j.finish = true → c.declen ≤ c.rcvd → (c.output j).length ≤ 64 → Runs (.digestJobEnd unit (.ok b) 0#2) s fun t =>
        (t.ctx k).st = .done ∧ (t.ctx k).result = 0 ∧ (t.ctx k).out = c.output j ∧ (t.ctx k).job = none
        ∧ ((t.ctx k).isMatch, (t.ctx k).matchN) = (if j.cmp = false then (0#8, 0#8)
            else if (j.expect.take (c.output j).length) = c.output j then (0xA5#8, 0x5A#8) else (0x3C#8, 0xC3#8))
        ∧ (∀ x, x ≠ k → t.ctx x = s.ctx x) ∧ ∀ p ∈ t.dge.units, p.1 ≠ unit.toNat))
    ∧ (∀ (unit : BitVec 4) (k x u : Nat) (rest : List Nat) (j : DgeJob) (data : Bytes),
      (s.dge.units.find? fun p => p.1 == unit.toNat) = some (u, k) → (s.ctx k).job = some j → s.dge.wait = x :: rest → x ≠ k →
      s.dge.freeUnit = none → (s.ctx x).saved = false → j.pos + data.length ≤ j.len →
      ((s.ctx k).rcvd + data.length) % (digestBlock (s.ctx k).alg).getD 64 = 0 → s.dge.due = some unit.toNat →
      s.windowOk (k / 8) (j.addr + j.pos) data.length false = true →
      Runs (.digestSwitch unit data) s fun t => t.dge.wait = rest ++ [k] ∧ (unit.toNat, x) ∈ t.dge.units
        ∧ (unit.toNat, k) ∉ t.dge.units ∧ t.dge.cntSwitch = s.dge.cntSwitch + 1#32
        ∧ (t.ctx k).saved = true ∧ (t.ctx k).saves = (s.ctx k).saves + 1 ∧ (t.ctx k).rcvd = (s.ctx k).rcvd + data.length
        ∧ (t.ctx k).job = some { j with pos := j.pos + data.length })
    ∧ (∀ value : BitVec 32, s.boot.ready = true →
      (s.saveRefused ((s.reg 0x700010).toNat + (s.reg 0x700014).toNat * 2 ^ 32) = false →
        Runs (.saveEnWrite 0#2 value) s fun t => t.saveEn = bit32 value 31
          ∧ fld (t.reg 0x700004) 0 16 = max 1 (fld value 0 16) ∧ t = { s with regs := t.regs })
      ∧ (s.saveRefused ((value &&& 0xFFF00000#32).toNat + (s.reg 0x700014).toNat * 2 ^ 32) = false →
        Runs (.saveEnWrite 1#2 value) s fun t => t.reg 0x700010 = value &&& 0xFFF00000#32
          ∧ (∀ a, a ≠ 0x700010 → t.reg a = s.reg a) ∧ t = { s with regs := t.regs })
      ∧ (s.saveRefused ((value &&& 0xFFF00000#32).toNat + (s.reg 0x700014).toNat * 2 ^ 32) = true →
        value &&& 0xFFF00000#32 ≠ s.reg 0x700010 →
        Runs (.saveEnWrite 1#2 value) s fun t => t.regs = s.regs ∧ Raised blkDge 5 s t))

/-- The DMA channels complete: GO checks the configuration, PAUSE and ABORT move the state, a pause and the end of a transfer
leave the transformed bytes at the destination and no others, in each of the four spaces, an access that is refused halts the
channel, and so does an error, with its cause and address (R497 to R503, R507). -/
def Obligations.DmaChannels : Prop :=
  ∀ (chan : BitVec 4) (s : State),
    let n := chan.toNat
    let c := s.ch n
    let w := s.dmaCtrl n
    let others (t : State) : Prop := ∀ m, m ≠ n → t.ch m = s.ch m
    (s.boot.ready = true →
      (∀ ctrl : BitVec 32, s.dma.dead = true → c.active = false → Runs (.dmaGo chan ctrl) s fun t =>
        (t.ch n).active = false ∧ others t ∧ t.reg (dmaPage n) = ctrl &&& dmaCfgMask ∧ Raised blkDma 12 s t) ∧
      (∀ ctrl : BitVec 32, s.dma.dead = false → c.active = false →
        let u := s.setReg (dmaPage n) (ctrl &&& dmaCfgMask)
        Runs (.dmaGo chan ctrl) s fun t => others t ∧ t.reg (dmaPage n) = ctrl &&& dmaCfgMask
          ∧ (u.dmaCfgOk n = true → t.ch n = { c with st := if bit32 ctrl 30 then .pausing else .run, prog := 0, cause := 0
                                                     dir := false, pause := bit32 ctrl 30 }
              ∧ t = { s with regs := t.regs, dma := t.dma })
          ∧ (u.dmaCfgOk n = false → t.ch n = { c with st := .idle, cause := 8, pause := bit32 ctrl 30 } ∧ Raised blkDma 8 s t))
      ∧ (∀ ctrl : BitVec 32, c.active = true → bit32 ctrl 29 = false → bit32 ctrl 30 = c.pause →
        Runs (.dmaGo chan ctrl) s fun t => Raised blkDma 12 s t ∧ Signals s t)
      ∧ (Runs (.dmaPauseSet chan) s fun t =>
        t.ch n = { c with st := if c.st = .run then .pausing else c.st, pause := true } ∧ others t
        ∧ t = { s with dma := t.dma })
      ∧ (Runs (.dmaPauseClear chan) s fun t =>
        t.ch n = { c with st := if c.st = .pausing ∨ c.st = .paused then .run else c.st, pause := false } ∧ others t
        ∧ t = { s with dma := t.dma })
      ∧ (Runs (.dmaAbort chan) s fun t => t.ch n = (if c.active = true then { c with st := .idle } else c) ∧ others t
        ∧ t = { s with dma := t.dma }))
    ∧ (∀ data : Bytes,
      let a := s.dmaDst n
      let at_ := a + c.prog
      let byte (j : Nat) : Byte := dmaOutByte w (s.dmaLen n) (s.dmaRead w (s.dmaSrc n) data) j
      let out (p : Nat) : Bytes := (List.range (p - c.prog)).map fun j => byte (c.prog + j)
      let lands (p : Nat) (t : State) : Prop := others t ∧ t.keys = s.keys
        ∧ (dmaDspace w = 1 → ∀ x, rdByte t.dram x = if at_ ≤ x ∧ x < a + p then byte (x - a) else rdByte s.dram x)
        ∧ (dmaDspace w ≠ 1 → t.dram = s.dram)
        ∧ (dmaDspace w = 2 →
            let k := (s.cl (at_ / 0x200000 % 16)).commitAll
            t.cl (at_ / 0x200000 % 16) = { k with csm := wrBytes k.csm (at_ % 0x200000) (out p), csmBad := (t.cl (at_ / 0x200000 % 16)).csmBad }
            ∧ (∀ x, x ∈ (t.cl (at_ / 0x200000 % 16)).csmBad ↔
              x ∈ k.csmBad ∧ ¬(at_ % 0x200000 ≤ x ∧ x < at_ % 0x200000 + (p - c.prog)))
            ∧ ∀ j, j ≠ at_ / 0x200000 % 16 → t.cl j = s.cl j)
        ∧ (dmaDspace w ≠ 2 → t.clusters = s.clusters)
        ∧ (dmaDspace w = 3 →
            (t.mau (at_ / 0x4000 % 32)).half0 = (s.mau (at_ / 0x4000 % 32)).half0.wr (at_ % 0x4000) (out p)
            ∧ ∀ j, j ≠ at_ / 0x4000 % 32 → t.mau j = s.mau j)
        ∧ (dmaDspace w ≠ 3 → t.maus = s.maus)
      let toHost (b p : Nat) (t : State) : Prop := bit32 (s.fault blkDma).fen b = false →
        t.hostMem = (if dmaDspace w = 0 ∧ (s.inst (dmaInst w)).st ≠ .inFlr then wrBytes s.hostMem at_ (out p) else s.hostMem)
      (∀ prog : BitVec 32, c.st = .pausing → c.prog ≤ prog.toNat → prog.toNat < s.dmaLen n →
        prog.toNat % dmaUnit w = 0 → s.dmaBlocked n prog.toNat = none →
        Runs (.dmaPaused chan prog data) s fun t => t.ch n = { c with st := .paused, prog := prog.toNat } ∧ lands prog.toNat t
          ∧ Raised blkDma 10 s t ∧ toHost 10 prog.toNat t)
      ∧ (c.st = .run ∨ c.st = .pausing → s.dmaBlocked n (s.dmaLen n) = none → Runs (.dmaDone chan data) s fun t =>
        t.ch n = { c with st := .done, prog := s.dmaLen n } ∧ lands (s.dmaLen n) t
          ∧ t.dma.cntDone = s.dma.cntDone + 1#32 ∧ Raised blkDma 9 s t ∧ toHost 9 (s.dmaLen n) t)
      ∧ (∀ r : DmaStop, c.st = .run ∨ c.st = .pausing → s.dmaBlocked n (s.dmaLen n) = some r →
        (let p := max c.prog r.done
         Runs (.dmaDone chan data) s fun t =>
          t.ch n = { c with st := .halted, cause := r.cause, dir := r.write, err := r.addr, prog := p } ∧ lands p t
          ∧ t.dma.cntHalt = s.dma.cntHalt + 1#32 ∧ Raised blkDma r.source s t ∧ (r.cause = 2 → Raised blkHiu 9 s t)
          ∧ (r.cause = 6 → Raised (blkMau + r.addr / 0x4000 % 32) 1 s t)))
      ∧ (∀ (source : BitVec 4) (write : Bool) (prog : BitVec 32) (addr : BitVec 64) (memCh : Bool) (lane : BitVec 4) (cause : Nat),
        dmaCause source.toNat = some cause → c.st = .run ∨ c.st = .pausing → c.prog ≤ prog.toNat → prog.toNat ≤ s.dmaLen n →
        s.dmaBlocked n prog.toNat = none →
        Runs (.dmaErrorHalt chan source write prog addr data memCh lane) s fun t =>
          t.ch n = { c with st := .halted, cause := cause, dir := write, err := addr.toNat, prog := prog.toNat }
          ∧ (source ≠ 15#4 → lands prog.toNat t ∧ t.dma.cntHalt = s.dma.cntHalt + 1#32) ∧ Raised blkDma source.toNat s t
          ∧ (source = 15#4 → t.dma.dead = true ∧ ∀ m, m < 16 → (t.ch m).active = false)))

/-! ## Modular arithmetic units -/

/-- The calls of a unit complete: a call is placed and staged, starts, and ends with its status, its output or its key, two
halves that differ end it 0x09, a fault places it once again and else ends it 0x09, an abort ends it 0x08 with its half
cleared, and a clear ends (R288 to R300, R324 to R330, R335). -/
def Obligations.MauCalls : Prop :=
  ∀ (unit : BitVec 5) (s : State),
    let u := unit.toNat
    let m := s.mau u
    let others (t : State) : Prop := ∀ v, v ≠ u → t.mau v = s.mau v
    (∀ (call : BitVec 32) (input : HostRead) (records : List HostRead) c hs b s1 s2 rand s3,
      let k := call.toNat
      let p : Call := { c with place := hs }
      s.call k = some c → c.st = .unplaced → s.chooseHalves c = some hs →
      (∀ h ∈ hs, ((s.mau h.unit).half h.frame).busyClear = false) → recParity input = false →
      State.readInput ((hs.foldl (fun s h => s.takeHalf k c h) s).setCall k (some p)) p input = (some b, s1) →
      s1.mauAllKeys p records hs = (none, s2) → s2.drawBlocks (mauBlocks c.opcode * hs.length) = some (rand, s3) →
      Runs (.mauPlace call input records) s fun t =>
        (∃ d, t.call k = some d ∧ d.st = .staged ∧ d.place = hs ∧ d.input = b ∧ d.rand = rand ∧ d.desc = c.desc)
        ∧ (∀ h ∈ hs, let x := (t.mau h.unit).half h.frame
            x.call = some k ∧ x.staged = true ∧ x.last = some c.inst ∧ ∀ a, a < b.length → x.rd a 1 = [b.getD a 0#8])
        ∧ (∀ v, (∀ h ∈ hs, h.unit ≠ v) → t.mau v = s.mau v) ∧ ∀ j, j ≠ k → t.call j = s.call j)
    ∧ (∀ h k c, m.stagedHalf = some h → m.run = none → m.half0.aborting = false → m.half1.aborting = false →
      (m.half h).busyClear = false → m.down = false → m.direct = false → (m.half h).call = some k → s.call k = some c →
      (Runs (.mauCallStart unit 0#3) s fun t => (t.mau u).run = some h ∧ (t.mau u).uon = true ∧ (t.mau u).stack = []
        ∧ (t.mau u).uaddr = Config.microEntry c.opcode ∧ (t.mau u).inst = c.inst ∧ (t.mau u).opc = c.opcode
        ∧ (t.mau u).startG = s.g ∧ (t.mau u).half0 = m.half0 ∧ (t.mau u).half1 = m.half1 ∧ others t
        ∧ t = { s with maus := t.maus })
      ∧ ∀ fault : BitVec 3, 1 ≤ fault.toNat → fault.toNat ≤ 6 →
        (fault.toNat ≤ 4 → c.mauReplays = 0 → (s.inst c.inst).st ≠ .inFlr → Runs (.mauCallStart unit fault) s fun t =>
          t.call k = some { c with place := [], rand := [], st := .unplaced, mauReplays := 1, avoid := some u }
          ∧ (t.mau u).down = decide (fault.toNat = 3) ∧ Raised (blkMau + u) 0 s t)
        ∧ (4 < fault.toNat ∨ c.mauReplays ≠ 0 → Direct s c → Runs (.mauCallStart unit fault) s fun t =>
          Completed k c 0x09 0 0 s t ∧ Raised (blkMau + u) 0 s t
          ∧ (t.mau u).cntCheck = (if fault.toNat = 5 then m.cntCheck + 1#32 else m.cntCheck)))
    ∧ (∀ k c h r, s.runCall u = some (k, c, h) → m.res = some r → r.check = true → Direct s c →
      Runs (.mauCallEnd unit 0#3) s fun t => Completed k c 0x09 0 0 s t ∧ Raised (blkMau + u) 0 s t
        ∧ (t.mau u).cntCheck = m.cntCheck + 1#32)
    ∧ (∀ k c h r, s.runCall u = some (k, c, h) → m.res = some r → r.check = false → m.abortReq = false → Direct s c →
      s.staleAtEnd c = false → r.status < 256 →
      let e := r.half (m.half h)
      let rests (t : State) : Prop := (t.mau u).run = none ∧ ((t.mau u).half h).keys = [] ∧ ((t.mau u).half h).scratch = []
        ∧ ((t.mau u).half h).clearing = true ∧ (t.mau u).cntCalls = m.cntCalls + 1#32
        ∧ t.g = max s.g (m.startG + mauBeats (s.mauTook u c h r))
      (∀ x, c.place = [x] → x.unit = u →
        (r.status ≠ 0 → Runs (.mauCallEnd unit 0#3) s fun t => Completed k c r.status 0 0 s t ∧ rests t)
        ∧ (r.status = 0 → r.out = [] → c.okeys = [] → Runs (.mauCallEnd unit 0#3) s fun t =>
          Completed k c 0 c.outLen 0 s t ∧ rests t)
        ∧ (∀ o, r.status = 0 → r.out = [] → c.okeys = [o] → o.num = 0 → (s.slot o.slot).klen ≤ 32 →
          Runs (.mauCallEnd unit 0#3) s fun t => (t.slot o.slot).st = .valid
            ∧ t.inlineKey o.slot = (padTo 32 (keyOf e.key0 o.klen)).take (s.slot o.slot).klen
            ∧ (∀ j, j ≠ o.slot → t.slot j = s.slot j) ∧ Completed k c 0 c.outLen (s.handleOf o.slot) s t ∧ rests t)
        ∧ (r.status = 0 → r.out ≠ [] → Runs (.mauCallEnd unit 0#3) s fun t => rests t ∧ t.hostMem = s.hostMem
          ∧ ∃ d, t.call k = some d ∧ d.st = .released ∧ d.out = r.out ∧ d.outLen = r.out.length ∧ d.pushed = false))
      ∧ (∀ x y, c.place = [x, y] → x.unit = u → y.unit ≠ u → y.res = none → Runs (.mauCallEnd unit 0#3) s fun t =>
        t.call k = some { c with place := [{ x with res := some e }, y] } ∧ rests t)
      ∧ (∀ x y a, c.place = [x, y] → x.unit ≠ u → y.unit = u → x.res = some a → halvesDiffer c false a e = true →
        Runs (.mauCallEnd unit 0#3) s fun t => Completed k c 0x09 0 0 s t ∧ rests t
          ∧ t.sch.cntPairfail = s.sch.cntPairfail + 1#32))
    ∧ (∀ (call : BitVec 32) c a rest, s.call call.toNat = some c → c.st = .released → c.pushed = false →
      isMauOp c.opcode = true → c.place.filterMap (·.res) = a :: rest → c.okeys = [] → Direct s c →
      s.windowOk c.inst c.outAddr c.out.length true = true → Runs (.outputPushDone call) s fun t =>
        t.hostMem = wrBytes s.hostMem c.outAddr c.out ∧ Completed call.toNat c 0 c.outLen 0 s t)
    ∧ (s.boot.ready = true → m.run ≠ none ∨ m.cmd ≠ none → Runs (.mauAbort unit) s fun t =>
      t.mau u = { m with abortReq := true } ∧ others t ∧ t = { s with maus := t.maus })
    ∧ (∀ k c h x, m.abortReq = true → bit32 (s.reg (0x400008 + 0x1000 * u)) 0 = false ∨ m.res ≠ none →
      s.runCall u = some (k, c, h) → c.place = [x] → x.unit = u → x.frame = h → Direct s c →
      Runs (.mauAbortTake unit) s fun t => Completed k c 0x08 0 0 s t ∧ (t.mau u).run = none ∧ others t
        ∧ (let y := (t.mau u).half h
           y.mem = [] ∧ y.keys = [] ∧ y.scratch = [] ∧ y.aborting = true ∧ y.call = none))
    ∧ (∀ half : Bool, Runs (.mauClearDone unit half) s fun t =>
      (t.mau u).half (b2n half) = { m.half (b2n half) with clearing := false, aborting := false }
      ∧ (t.mau u).half (1 - b2n half) = m.half (1 - b2n half) ∧ others t ∧ t = { s with maus := t.maus })
    ∧ (∀ on : Bool, s.boot.ready = true → Runs (.mauOos unit on) s fun t => t.mau u = { m with oos := on }
      ∧ (on = true → (t.mau u).admits = false) ∧ others t ∧ t = { s with maus := t.maus })

/-- Direct mode and the patch RAM complete: an idle unit enters direct mode with both halves clear and leaves it so, a
command is issued, ends with its RESULT and sets DONE, the operand memory reads back the word at ADDR, and five words make
a microword until LOCK (R320 to R323, R328, R334, R337). -/
def Obligations.MauDirect : Prop :=
  ∀ (unit : BitVec 5) (s : State),
    let u := unit.toNat
    let m := s.mau u
    let only (t : State) : Prop := (∀ v, v ≠ u → t.mau v = s.mau v) ∧ t = { s with maus := t.maus }
    let clear (x : MauHalf) : Prop := x.mem = [] ∧ x.junk = none ∧ x.keys = [] ∧ x.scratch = [] ∧ x.call = none
    (s.boot.ready = true → m.direct = false →
      (m.stateCode = 0 → Runs (.mauDirectSet unit) s fun t => (t.mau u).direct = true ∧ clear (t.mau u).half0
        ∧ clear (t.mau u).half1 ∧ (t.mau u).stateCode = 4 ∧ only t)
      ∧ (m.stateCode ≠ 0 → Runs (.mauDirectSet unit) s fun t => t.maus = s.maus ∧ Raised (blkMau + u) 1 s t ∧ Signals s t))
    ∧ (s.boot.ready = true → m.direct = true →
      (Runs (.mauDirectClear unit) s fun t => (t.mau u).direct = false ∧ clear (t.mau u).half0 ∧ clear (t.mau u).half1 ∧ only t)
      ∧ (∀ value : BitVec 32,
        (m.cmd = none → Runs (.mauRcmdHiWrite unit value) s fun t => (t.mau u).cmd = some (value ++ m.rcmdLo)
          ∧ (t.mau u).half0 = m.half0 ∧ only t)
        ∧ (m.cmd ≠ none → Runs (.mauRcmdHiWrite unit value) s fun t => t.mau u = { m with done := true, result := 3 }
          ∧ (∀ v, v ≠ u → t.mau v = s.mau v) ∧ t = { s with maus := t.maus, msix := t.msix, hostMem := t.hostMem }
          ∧ (bit32 (s.reg (0x400008 + 0x1000 * u)) 1 = false → t.hostMem = s.hostMem ∧ t.msix = s.msix)))
      ∧ (∀ v : BitVec 32, Runs (.mauOpmDataAccess unit (some v)) s fun t =>
          (t.mau u).half0.rd (m.opmAddr / 4 * 4) 4 = natLe 4 v.toNat
          ∧ (∀ a, a < m.opmAddr / 4 * 4 ∨ m.opmAddr / 4 * 4 + 4 ≤ a → (t.mau u).half0.rd a 1 = m.half0.rd a 1)
          ∧ (t.mau u).opmAddr = (m.opmAddr + 4) % 0x4000 ∧ (t.mau u).half1 = m.half1 ∧ only t)
      ∧ Runs (.mauOpmDataAccess unit none) s fun t =>
          t.rdata = BitVec.ofNat 32 (leNat (m.half0.rd (m.opmAddr / 4 * 4) 4))
          ∧ t.mau u = { m with opmAddr := (m.opmAddr + 4) % 0x4000 } ∧ only { t with rdata := s.rdata })
    ∧ (s.boot.ready = true → m.direct = false → ∀ value : BitVec 32, Runs (.mauRcmdHiWrite unit value) s fun t =>
        t.maus = s.maus ∧ Raised (blkMau + u) 1 s t ∧ Signals s t)
    ∧ (s.boot.ready = true → m.direct = false → ∀ w, Runs (.mauOpmDataAccess unit w) s fun t =>
        t.maus = s.maus ∧ Raised (blkMau + u) 1 s t ∧ (w = none → t.rdata = 0#32))
    ∧ (∀ w, m.direct = true → m.cmd = some w →
      let ends (n : Nat) : Prop := Runs (.mauDirectDone unit) s fun t => (t.mau u).done = true ∧ (t.mau u).result = n
        ∧ (t.mau u).cmd = none ∧ (t.mau u).half0 = m.half0 ∧ (∀ v, v ≠ u → t.mau v = s.mau v)
        ∧ t = { s with maus := t.maus, msix := t.msix, hostMem := t.hostMem }
        ∧ (bit32 (s.reg (0x400008 + 0x1000 * u)) 1 = false → t.hostMem = s.hostMem ∧ t.msix = s.msix)
      (m.directRefused w = true → ends 1)
      ∧ (m.directRefused w = false → m.abortReq = true → bit32 (s.reg (0x400008 + 0x1000 * u)) 0 = true → ends 4)
      ∧ (m.directRefused w = false → m.abortReq = false ∨ bit32 (s.reg (0x400008 + 0x1000 * u)) 0 = false → m.res ≠ none →
        ends (if m.rawBad then 2 else 0)))
    ∧ (m.locked = false → s.lc ≠ .scrap → ∀ value : BitVec 32,
      (m.patchBuf.length < 4 → Runs (.mauPatchDataWrite unit value) s fun t =>
        t.mau u = { m with patchBuf := m.patchBuf ++ [value] } ∧ only t)
      ∧ (∀ a b c d : BitVec 32, m.patchBuf = [a, b, c, d] → Runs (.mauPatchDataWrite unit value) s fun t =>
        mget (fun _ => 0#160) (t.mau u).patch m.patchAddr = value ++ d ++ c ++ b ++ a
        ∧ (∀ x, x ≠ m.patchAddr → mget (fun _ => 0#160) (t.mau u).patch x = mget (fun _ => 0#160) m.patch x)
        ∧ (t.mau u).patchAddr = (m.patchAddr + 1) % 1024 ∧ (t.mau u).patchBuf = []
        ∧ (u ≠ 0 ∨ bit32 (s.reg 0x400038) 30 = false → only t))
      ∧ Runs (.mauPatchLock unit value) s fun t => t.mau u = { m with locked := true, patchVer := fld value 0 16 }
        ∧ bit32 (t.reg (0x400038 + 0x1000 * u)) 31 = true ∧ fld (t.reg (0x400038 + 0x1000 * u)) 0 16 = fld value 0 16
        ∧ only { t with regs := s.regs })
    ∧ (m.locked = true → ∀ value : BitVec 32, Runs (.mauPatchDataWrite unit value) s fun t =>
      t.maus = s.maus ∧ (value ≠ m.patchData → Raised (blkMau + u) 1 s t) ∧ Signals s t)

/-- The macro operations complete with the outcomes of R302 to R311: a public defect is found early, a signature out of
range is 0x0D, a private record whose p × q is not n or a scalar out of range is 0x06, a result whose invariant does not
hold is 0x09, and else the output has the length of its row; an output key stands in the key store as two shares, and operand
memory is free afterwards (R290, R292, R301 to R311). -/
def Obligations.MauMacros : Prop :=
  ∀ (unit : BitVec 5) (s : State) (k : Nat) (c : Call) (h : Nat), s.runCall unit.toNat = some (k, c, h) →
    (s.mau unit.toNat).res = none →
    let u := unit.toNat
    let x := (s.mau u).half h
    let kb := c.size.k
    let f := c.size.f
    let n := c.size.n
    let cv := curveOf c x f
    let d := beNat (x.key 0)
    let gives (i : Instr) (op : Nat) (P : MauRes → Option Bytes → Prop) : Prop := c.opcode = op → Runs i s fun t =>
      (∃ r key, (t.mau u).res = some r ∧ P r key ∧ (t.mau u).run = (s.mau u).run
        ∧ ((t.mau u).half h).mem = [] ∧ ((t.mau u).half h).junk = some s.freeCtr
        ∧ (key = none → ((t.mau u).half h).keys = x.keys)
        ∧ (∀ b, key = some b → ∃ z, ((t.mau u).half h).keys = x.keys ++ [z] ∧ z.num = outKeyNum
            ∧ keyOf (some (z.share0, z.share1)) b.length = b)
        ∧ t = { s with maus := t.maus, freeCtr := s.freeCtr + 16384 + (key.getD []).length })
      ∧ (t.mau u).half (1 - min h 1) = (s.mau u).half (1 - min h 1) ∧ ∀ v, v ≠ u → t.mau v = s.mau v
    let fails (st : Nat) (early : Bool) (r : MauRes) (key : Option Bytes) : Prop :=
      r.status = st ∧ r.early = early ∧ r.out = [] ∧ r.check = false ∧ key = none
    let makes (len : Nat) (r : MauRes) (key : Option Bytes) : Prop :=
      r.status = 0 ∧ r.early = false ∧ r.out.length = len ∧ r.check = false ∧ key = none
    let broken (r : MauRes) (key : Option Bytes) : Prop :=
      r.status = 0x09 ∧ r.early = false ∧ r.out = [] ∧ r.check = true ∧ key = none
    gives (.rsaKeygen unit) 0xB0 (fun r key => broken r key ∨ r.status = 0 ∧ r.early = false ∧ r.check = false
      ∧ r.out.length = leAt c.param 0 2 / 8
      ∧ ∃ b, key = some b ∧ b.length = 5 * (leAt c.param 0 2 / 16) + leAt c.param 0 2 / 8 + 4 ∧ rsaKeyOk b (leAt c.param 0 2) = true ∧ badRecord b (leAt c.param 0 2) = false
        ∧ beNat r.out = recN b (leAt c.param 0 2) % 2 ^ (8 * (leAt c.param 0 2 / 8)))
    ∧ gives (.rsaSign unit) 0xB1 (fun r key => if badRecord (x.key 0) kb = true then fails 0x06 false r key
        else makes (kb / 8) r key ∨ broken r key)
    ∧ (let p := rsaPublic c x kb
       let sig := beNat (p.2.2.drop (hashLen c.hash))
       let defect := c.keyHandle 0 = 0 ∧ badPublic p.1 p.2.1 kb = true
       gives (.rsaVerify unit) 0xB2 (fun r key =>
         (defect → fails 0x06 true r key) ∧ (¬ defect → sig = 0 ∨ p.1 ≤ sig → fails 0x0D true r key)
         ∧ (¬ defect → sig ≠ 0 → sig < p.1 → fails 0 false r key ∨ fails 0x0D false r key))
       ∧ gives (.rsaEncrypt unit) 0xB4 (fun r key =>
         (defect → fails 0x06 true r key)
         ∧ (¬ defect → kb / 8 < (p.2.2.drop (c.aux % 256)).length + 2 * hashLen c.hash + 2 → fails 0x06 true r key)
         ∧ (¬ defect → (p.2.2.drop (c.aux % 256)).length + 2 * hashLen c.hash + 2 ≤ kb / 8 → makes (kb / 8) r key)))
    ∧ (let y := beNat (c.input.take (kb / 8))
       gives (.rsaDecrypt unit) 0xB3 (fun r key =>
         (y = 0 ∨ recN (x.key 0) kb ≤ y → fails 0x06 true r key)
         ∧ (y ≠ 0 → y < recN (x.key 0) kb → badRecord (x.key 0) kb = true → fails 0x06 false r key)
         ∧ (y ≠ 0 → y < recN (x.key 0) kb → badRecord (x.key 0) kb = false →
             if rsaPublicPow (recN (x.key 0) kb) (recE (x.key 0) kb) (rsaPrivate (x.key 0) kb y) = y then
               fails 0x06 false r key ∨ ∃ l, l ≤ kb / 8 - 2 * hashLen c.hash - 2 ∧ makes l r key
             else broken r key)))
    ∧ gives (.ecKeygen unit) 0xB5 (fun r key => broken r key ∨ r.status = 0 ∧ r.early = false ∧ r.check = false
        ∧ r.out.length = 1 + 2 * f
        ∧ ∃ b q, key = some b ∧ b.length = n ∧ r.out = pointBytes q f ∧ resultOn cv q = true)
    ∧ gives (.ecdsaSign unit) 0xB6 (fun r key => (badScalar cv d = true → fails 0x06 false r key)
        ∧ (badScalar cv d = false → fails 0x08 false r key ∨ makes (2 * n) r key ∨ broken r key))
    ∧ (let q := if c.keyHandle 0 ≠ 0 then x.key 0 else c.input.take (1 + 2 * f)
       let rest := if c.keyHandle 0 ≠ 0 then c.input else c.input.drop (1 + 2 * f)
       let v := beNat (rest.drop (rest.length - n))
       gives (.ecdsaVerify unit) 0xB7 (fun r key => (badQ cv q f = true → fails 0x06 true r key)
         ∧ (badQ cv q f = false → 2 * n ≤ rest.length → v = 0 ∨ cv.getD 5 0 ≤ v → fails 0x0D true r key)
         ∧ (badQ cv q f = false → (∃ early, fails 0x0D early r key) ∨ fails 0 false r key)))
    ∧ gives (.ecdh unit) 0xB8 (fun r key => (badQ cv c.input f = true → fails 0x06 true r key)
        ∧ (badQ cv c.input f = false → badScalar cv d = true → fails 0x06 false r key)
        ∧ (badQ cv c.input f = false → badScalar cv d = false → scaled cv d (pointOf c.input f) = none → fails 0x06 false r key)
        ∧ (∀ q, badQ cv c.input f = false → badScalar cv d = false → scaled cv d (pointOf c.input f) = some q →
            if resultOn cv q = true then r.status = 0 ∧ r.out = [] ∧ r.check = false ∧ key = some (natBe f q.1)
            else broken r key))
    ∧ gives (.ecCurveLoad unit) 0xB9 (fun r key => if curveOk c.input = true then r.status = 0 ∧ r.out = [] ∧ r.check = false
          ∧ key = some c.input
        else fails 0x06 false r key)

/-- A raw list: the prologue refuses a defective list with 0x06 at V and else accepts it; then each command in turn has the
effect of its row of R317 on the slots, in residues modulo its modulus, and the list ends with its last command (R315 to
R319). -/
def Obligations.MauRawLists : Prop :=
  ∀ (unit : BitVec 5) (s : State),
    let u := unit.toNat
    let m := s.mau u
    (∀ k c h, s.runCall u = some (k, c, h) → m.res = none → m.rawOk = false → c.opcode = 0xBA →
      Runs (.mauRaw unit) s fun t => (∀ v, v ≠ u → t.mau v = s.mau v) ∧ t = { s with maus := t.maus }
        ∧ (if rawRefused c.input c.outLenMax then (∃ r, (t.mau u).res = some r ∧ r.status = 0x06 ∧ r.out = [] ∧ (t.mau u).rawOk = false)
           else (t.mau u).rawOk = true ∧ (t.mau u).res = none ∧ (t.mau u).run = m.run ∧ (t.mau u).half0 = m.half0
             ∧ (t.mau u).half1 = m.half1 ∧ (t.mau u).rawPos = m.rawPos ∧ (t.mau u).rawData = m.rawData
             ∧ (t.mau u).rawOut = m.rawOut ∧ (t.mau u).mods = m.mods ∧ (t.mau u).curve = m.curve))
    ∧ ∀ w data, s.rawNext u = some (w, data) →
      let l := rLen w
      let q := m.modulus (rM w)
      let a := m.val (rA w) l
      let b := m.val (rB w) l
      let goes (i : Instr) (code : Nat) (dest : List Nat) (P : Mau → Prop) : Prop := rCmd w = code → m.noModulus w = false →
        Runs i s fun t =>
          let n := t.mau u
          P n ∧ (∀ j, j ∉ dest → n.val j l = m.val j l) ∧ n.run = m.run ∧ (∀ v, v ≠ u → t.mau v = s.mau v)
          ∧ t = { s with maus := t.maus } ∧ n.stack = []
          ∧ (code ≠ 0x02 → n.rawOut = m.rawOut) ∧ (code ≠ 0x03 → n.mods = m.mods ∧ n.rawBad = m.rawBad)
          ∧ (code ≠ 0x10 → n.curve = m.curve) ∧ (code ≠ 0x01 → n.rawData = m.rawData)
          ∧ (∀ k c h, s.runCall u = some (k, c, h) → n.rawPos = m.rawPos + 1
              ∧ (n.res = none ↔ m.rawPos + 1 < rawCount c.input))
          ∧ (s.runCall u = none → ∃ r, n.res = some r ∧ r.status = 0)
      let residue (i : Instr) (code : Nat) (P : Nat → Prop) : Prop :=
        goes i code [rD w] fun n => ∃ r, P r ∧ n.val (rD w) l = r % 2 ^ (64 * l)
      let cut (p : Pt) : Pt := (p.1 % 2 ^ (64 * l), p.2 % 2 ^ (64 * l))
      let ec := m.ecParams
      goes (.rawLoad unit) 0x01 [rD w] (fun n => n.val (rD w) 256 = beNat (data.take (rImm w)) % 2 ^ (64 * 256)
        ∧ n.rawData = m.rawData + rImm w)
      ∧ goes (.rawStore unit) 0x02 [] (fun n => n.rawOut = m.rawOut ++ natBe (rImm w) (m.val (rD w) l))
      ∧ goes (.rawModset unit) 0x03 [] (fun n => n.modulus (rM w) = m.val (rM w) l
        ∧ n.rawBad = (m.rawBad || badModulus l (m.val (rM w) l)))
      ∧ residue (.rawMadd unit) 0x04 (fun r => r < q ∧ r % q = (a + b) % q)
      ∧ residue (.rawMsub unit) 0x05 (fun r => r < q ∧ (r + b) % q = a % q)
      ∧ residue (.rawMmul unit) 0x06 (fun r => r < q ∧ r * 2 ^ (64 * l) % q = a * b % q)
      ∧ residue (.rawMsqr unit) 0x07 (fun r => r < q ∧ r * 2 ^ (64 * l) % q = a * a % q)
      ∧ residue (.rawTomont unit) 0x08 (fun r => r = a * 2 ^ (64 * l) % q)
      ∧ residue (.rawFrommont unit) 0x09 (fun r => r < q ∧ r * 2 ^ (64 * l) % q = a % q)
      ∧ residue (.rawMexp unit) 0x0A (fun r => r = a ^ (b % 2 ^ rImm w) % q)
      ∧ residue (.rawMinv unit) 0x0B (fun r => r < q ∧ (Nat.Coprime a q → r * a % q = 1 % q) ∧ (¬ Nat.Coprime a q → r = 0))
      ∧ goes (.rawEcset unit) 0x10 [] (fun n => n.ecParams = (n.modulus (rM w), a, b))
      ∧ goes (.rawEcchk unit) 0x11 [rD w] (fun n => n.val (rD w) 256 =
          if onCurve ec.1 ec.2.1 ec.2.2 (a, m.val (rA w + 1) l) then 1 else 0)
      ∧ goes (.rawEcadd unit) 0x12 [rD w, rD w + 1] (fun n =>
          n.pt (rD w) l = cut (ecAdd ec.1 ec.2.1 (m.pt (rA w) l) (m.pt (rB w) l)))
      ∧ goes (.rawEcmul unit) 0x13 [rD w, rD w + 1] (fun n =>
          n.pt (rD w) l = cut (ecMul ec.1 ec.2.1 (min (rImm w) (64 * l)) (m.pt (rA w) l) b))

/-! ## Debug readback, clusters, tamper -/

/-- Debug readback and the cluster controls complete: EN opens one engine of a cluster, HALT, STEP and RESUME drive it, EN
dropped scrubs it, DE_DBG_DATA reads and writes the debug space of a halted engine and adds 4 to ADDR; without the readback
enable an access only raises LCC_DEBUG_DENY, and a read returns 0; OOS closes a cluster to admission, and RST clears one that is out of use (R93 to
R100, R104). -/
def Obligations.DebugReadback : Prop :=
  ∀ (cluster : BitVec 4) (s : State), s.boot.ready = true →
    let c := cluster.toNat
    let k := s.cl c
    let i := s.dbgEng c
    let e := s.eng i
    let within (n : Nat) (t : State) : Prop :=
      (∀ j, j ≠ n → t.eng j = s.eng j) ∧ t = { s with clusters := t.clusters, engines := t.engines }
    (s.debugEn.getLsbD 1 = true →
      (∀ (sel : BitVec 5) (haltExc : Bool), k.dbgEn = false → Runs (.debugEnSet cluster sel haltExc) s fun t =>
        t.cl c = { k with dbgEn := true, dbgHaltExc := haltExc, dbgSel := sel.toNat } ∧ (∀ j, j ≠ c → t.cl j = s.cl j)
        ∧ within (32 * c + sel.toNat) t
        ∧ (let x := s.eng (32 * c + sel.toNat)
           t.eng (32 * c + sel.toNat) = (if x.peal.isSome then x else { x with dbgOn := true })))
      ∧ (∀ (sel : BitVec 5) (haltExc : Bool), k.dbgEn = true → sel.toNat ≠ k.dbgSel →
        Runs (.debugEnSet cluster sel haltExc) s fun t => Raised c 23 s t ∧ Signals s t)
      ∧ (k.dbgEn = true → k.dbgSel < 32 →
        (e.dbgOn = true → e.mode ≠ .halted → Runs (.debugHalt cluster) s fun t => (∀ j, t.cl j = s.cl j) ∧ within i t
          ∧ t.eng i = { e with mode := .halted
                               leave := if e.peal.isSome && e.leave.isNone then some .debugHalt else e.leave })
        ∧ (e.dbgOn = true → e.mode = .halted →
          (Runs (.debugStep cluster) s fun t => (∀ j, t.cl j = s.cl j) ∧ within i t ∧ t.eng i = { e with mode := .stepping })
          ∧ Runs (.debugResume cluster) s fun t => (∀ j, t.cl j = s.cl j) ∧ within i t ∧ t.eng i = { e with mode := .resumed })
        ∧ (Runs (.debugEnClear cluster) s fun t =>
          let x := t.eng i
          t.cl c = { k with dbgEn := false } ∧ (∀ j, j ≠ c → t.cl j = s.cl j) ∧ within i t ∧ x.dbgOn = false
          ∧ (e.peal.isSome = true → e.mode = .run ∨ e.mode = .ended ∨ e.mode = .left → x = { e with dbgOn := false })
          ∧ (e.peal = none ∨ (e.mode ≠ .run ∧ e.mode ≠ .ended ∧ e.mode ≠ .left) → x.sregs = [] ∧ x.vregs = [] ∧ x.pregs = [] ∧ x.kcu = []
            ∧ x.vl = 512 ∧ x.eri = 0 ∧ x.cause = 0 ∧ x.mode = (if e.peal.isSome then .left else .idle)
            ∧ ∀ a, rdByte x.dmem a = if a < (e.resident.map (·.constLen)).getD 0 then rdByte e.dmem a else 0#8))))
    ∧ (s.debugEn.getLsbD 1 = false → ∀ (sel : BitVec 5) (haltExc : Bool),
      let denied (i : Instr) : Prop := Runs i s fun t => Raised blkLcc 0 s t ∧ Signals s t
      denied (.debugEnSet cluster sel haltExc) ∧ denied (.debugEnClear cluster) ∧ denied (.debugHalt cluster)
      ∧ denied (.debugStep cluster) ∧ denied (.debugResume cluster))
    ∧ (s.debugEn.getLsbD 1 = false → ∀ v : BitVec 32,
      (Runs (.debugDataAccess cluster false v) s fun t => t.rdata = 0#32 ∧ Raised blkLcc 0 s t
        ∧ Signals { s with rdata := 0#32 } t)
      ∧ Runs (.debugDataAccess cluster true v) s fun t => Raised blkLcc 0 s t ∧ Signals s t)
    ∧ (s.debugEn.getLsbD 1 = true → ∀ v : BitVec 32,
      let a := k.dbgWord
      let bumped (t : State) : Prop := t.cl c = { k with dbgAddr := (k.dbgAddr + 4) % 2 ^ 32 } ∧ (∀ j, j ≠ c → t.cl j = s.cl j)
      (s.dbgReach c = true →
        (Runs (.debugDataAccess cluster false v) s fun t => t.rdata = BitVec.ofNat 32 (e.dbgRead a) ∧ bumped t
          ∧ t = { s with clusters := t.clusters, rdata := t.rdata })
        ∧ Runs (.debugDataAccess cluster true v) s fun t =>
          let x := t.eng i
          bumped t ∧ within i t
          ∧ (a < 0x20000 → rdBytes x.dmem a 4 = natLe 4 v.toNat
            ∧ ∀ b, b < a ∨ a + 4 ≤ b → rdByte x.dmem b = rdByte e.dmem b)
          ∧ (∀ n, 0 < n → n < 32 → a = 0x110000 + 8 * n → (x.sreg n).toNat % 2 ^ 32 = v.toNat
            ∧ (x.sreg n).toNat / 2 ^ 32 = (e.sreg n).toNat / 2 ^ 32 ∧ ∀ m, m ≠ n → x.sreg m = e.sreg m)
          ∧ (0x120000 ≤ a → a < 0x128000 → x = e))
      ∧ (s.dbgReach c = false →
        (Runs (.debugDataAccess cluster false v) s fun t => t.rdata = 0#32 ∧ bumped t
          ∧ t = { s with clusters := t.clusters, rdata := t.rdata })
        ∧ Runs (.debugDataAccess cluster true v) s fun t => bumped t ∧ t = { s with clusters := t.clusters }))
    ∧ (∀ on : Bool, Runs (.clusterOos cluster on) s fun t => t.cl c = { k with oos := on } ∧ (∀ j, j ≠ c → t.cl j = s.cl j)
      ∧ t = { s with clusters := t.clusters })
    ∧ (k.inService = false → s.running c = 0 → Runs (.clusterRst cluster) s fun t =>
      let x := t.cl c
      x.csm = [] ∧ x.kpb = [] ∧ x.dbgEn = false ∧ x.oos = k.oos ∧ x.capStep = k.capStep ∧ x.gRef = s.g
      ∧ (∀ n, n < 32 → let y := t.eng (32 * c + n)
          y.sregs = [] ∧ y.vregs = [] ∧ y.pregs = [] ∧ y.dmem = [] ∧ y.kcu = [] ∧ y.peal = none ∧ y.mode = .idle
          ∧ y.dbgOn = false ∧ y.resident = (s.eng (32 * c + n)).resident
          ∧ y.needReload = (s.eng (32 * c + n)).resident.isSome)
      ∧ t.keys = s.keys ∧ t.hostMem = s.hostMem ∧ t.maus = s.maus ∧ t.instances = s.instances)
    ∧ (k.inService = true ∨ s.running c ≠ 0 → Runs (.clusterRst cluster) s fun t => Raised c 23 s t ∧ Signals s t)

/-- The detectors of the monitor complete: each raises its alarm at the level its field gives, once while it stays active,
and a STUCK input no more; levels are written within their ranges until LOCK, a re-arm frees an input that has been quiet
for 1 s, the response ends after the hold, the battery windows catch an input active twice, and evidence moves into the
fuses (R550 to R574). -/
def Obligations.TamperMonitor : Prop :=
  ∀ (s : State),
    let m := s.tmp
    let hold (b unit level : Nat) (m : Tmp) : Tmp := { m with
      active := { src := b, unit := unit, level := level } :: m.active.filter fun a => a.src != b || a.unit != unit }
    let acts (i : Instr) (b unit level : Nat) (m : Tmp) : Prop := Runs i s (AlarmActs b level (hold b unit level m) s)
    (s.onMain = true →
      (∀ (rail : BitVec 2) (below : Bool), s.railQuiet rail.toNat below = false →
        acts (.railGlitch rail below) 0 rail.toNat (fld m.lvlRail (6 * rail.toNat) 3) m
        ∧ acts (.railSlowExcursion rail below) 1 rail.toNat (fld m.lvlRail (6 * rail.toNat + 3) 3) m
        ∧ acts (.detectorDisagree rail below) 2 rail.toNat (fld m.lvlEnv 0 3) m)
      ∧ (∀ tj : BitVec 16,
        (960 < tj.toInt → m.has 3 = false → acts (.tempAlarm tj) 3 0 (fld m.lvlEnv 3 3) { m with tj := tj })
        ∧ (tj.toInt < -400 → m.has 4 = false → acts (.tempAlarm tj) 4 0 (fld m.lvlEnv 6 3) { m with tj := tj })
        ∧ (-400 ≤ tj.toInt → tj.toInt ≤ 960 → Runs (.tempAlarm tj) s fun t => t = { s with tmp := { m with tj := tj } }))
      ∧ acts .clockFault 5 0 (fld m.lvlEnv 9 3) m ∧ acts .xtalStop 6 0 (fld m.lvlEnv 12 3) m
      ∧ (let seen (n : Nat) : Tmp := { m with filt := m.filt ||| bit6 n, raw := m.raw ||| bit6 n, stuck := m.stuck ||| bit6 n }
        (∀ input : BitVec 3, input.toNat < 4 → bit32 m.inCfg input.toNat = true → m.filt.getLsbD input.toNat = false →
          (m.stuck.getLsbD input.toNat = false →
            acts (.tamperInputActive input) 7 input.toNat (fld m.lvlIn (3 * input.toNat) 3) (seen input.toNat))
          ∧ (m.stuck.getLsbD input.toNat = true → Runs (.tamperInputActive input) s fun t => t.alarm = s.alarm
            ∧ t = { s with tmp := hold 7 input.toNat (fld m.lvlIn (3 * input.toNat) 3) (seen input.toNat) }))
        ∧ (m.filt.getLsbD 5 = false → m.stuck.getLsbD 5 = false → acts (.tamperInputActive 5#3) 9 0 4 (seen 5))
        ∧ ∀ pair : Bool, m.meshEn = true → m.stuck.getLsbD 4 = false →
          acts (.meshBreach pair) 8 (b2n pair) (fld m.lvlIn 12 3) (seen 4))
      ∧ (∀ (region : BitVec 8) (offset : BitVec 32), Runs (.shadowMismatch region offset) s
          (AlarmActs 10 (max 3 (fld m.lvlEnv 15 3)) m s)))
    ∧ (∀ (src : BitVec 4) (unit : BitVec 3) a, (m.active.find? fun a => a.src == src.toNat && a.unit == unit.toNat) = some a →
      Runs (.alarmSourceInactive src unit) s fun t =>
        t.tmp.active = (m.active.filter fun x => x.src != src.toNat || x.unit != unit.toNat)
        ∧ t.tmp.holdFrom = (if 2 ≤ a.level then (s.g : Int) else m.holdFrom) ∧ t.tmp.stuck = m.stuck ∧ t.tmp.resp = m.resp
        ∧ t = { s with tmp := t.tmp })
    ∧ (m.resp = 2 → m.disturbed = false → Runs .holdEnd s fun t => t.alarm = false ∧ t.tmp = { m with resp := 0 }
      ∧ t.g = max s.g m.holdEnd.toNat ∧ t.sch = s.sch ∧ t.keys = s.keys ∧ t.faults = s.faults)
    ∧ (∀ (reg : LvlReg) (value : BitVec 32), s.boot.ready = true →
      (lvlOk reg value = true → s.tmpLocked = false → Runs (.tmpLevelWrite reg value) s fun t =>
        t = { s with tmp := m.setLvl (value &&& lvlMask reg) reg } ∧ bit32 t.tmp.lvlIn 17 = (if reg = .inputs then true else bit32 m.lvlIn 17))
      ∧ (lvlOk reg value = false ∨ (s.tmpLocked = true ∧ value &&& lvlMask reg ≠ m.lvl reg) →
        Runs (.tmpLevelWrite reg value) s fun t => t.tmp = m ∧ Raised blkTmp 13 s t ∧ Signals s t)
      ∧ (s.tmpLocked = false → 1 ≤ fld value 16 10 → fld value 16 10 ≤ 1000 → Runs (.tmpLock value) s fun t =>
        t.tmp.lock = true ∧ t.tmp.holdMs = fld value 16 10 ∧ t.tmp.meshEn = bit32 value 30
        ∧ t.tmp.lvlRail = m.lvlRail ∧ t.tmp.lvlEnv = m.lvlEnv ∧ t.tmp.lvlIn = m.lvlIn ∧ t.tmp.inCfg = m.inCfg
        ∧ t = { s with tmp := t.tmp }))
    ∧ (∀ bits : BitVec 6, s.boot.ready = true → 1 ≤ m.holdMs → m.holdMs ≤ 1000 → Runs (.rearm bits) s fun t =>
      (∀ n, n < 6 → t.tmp.stuck.getLsbD n = (m.stuck.getLsbD n && !(bits.getLsbD n && !m.filt.getLsbD n
        && decide ((39062500 : Int) ≤ s.g - mget (fun _ => (0 : Int)) m.quietAt n))))
      ∧ t.tmp.lock = m.lock ∧ t.tmp.holdMs = m.holdMs ∧ t.tmp.meshEn = m.meshEn ∧ t = { s with tmp := t.tmp })
    ∧ (m.battery = true →
      (∀ active : BitVec 6, Runs (.batteryWindow active) s fun t =>
        let act := active &&& m.watchMask
        let alarms (n : Nat) : Bool := act.getLsbD n && m.battPrev.getLsbD n && !m.filt.getLsbD n && !m.stuck.getLsbD n
        t.tmp.battPrev = act ∧ t.tmp.raw = act
        ∧ (∀ n, n < 6 → t.tmp.filt.getLsbD n = (act.getLsbD n && (m.filt.getLsbD n || m.battPrev.getLsbD n))
          ∧ t.tmp.stuck.getLsbD n = (m.stuck.getLsbD n || alarms n)
          ∧ bit32 t.tmp.battRec n = (bit32 m.battRec n || alarms n))
        ∧ ((∃ n, n < 6 ∧ alarms n = true ∧ m.inLevel n = 4) → RootsErased t)
        ∧ ((∀ n, n < 6 → alarms n = true → m.inLevel n ≠ 4) → t.bbram = s.bbram)
        ∧ t = { s with tmp := t.tmp, bbram := t.bbram })
      ∧ (m.stuck.getLsbD 4 = false → m.meshEn = true ∨ fld m.inCfg 0 4 ≠ 0 → Runs .batteryXtalStop s fun t =>
        t.tmp.stuck = m.stuck ||| bit6 4 ∧ bit32 t.tmp.battRec 6 = true ∧ bit32 t.tmp.battRec 4 = true
        ∧ t.tmp.cntAlarm = m.cntAlarm + 1#32 ∧ (if m.inLevel 4 = 4 then RootsErased t else t.bbram = s.bbram)))
    ∧ (m.evid ≠ 0 → s.onMain = true → s.lcc.decoded = true → s.otpFree = true → Runs .evidenceMove s fun t =>
      t.tmp = { m with evid := 0 } ∧ t.otp = { s.otp with evidence := s.otp.evidence + min m.evid (512 - s.otp.evidence) }
      ∧ t.g = s.g + fuseBeats (min m.evid (512 - s.otp.evidence)) ∧ t.keys = s.keys ∧ t.bbram = s.bbram)

/-! ## Life cycle, reset, bring-up -/

/-- The life-cycle commands complete: a challenge is held and answered, a package that passes begins a transition and one
that fails is counted and changes no fuse, the root step writes what its target names, the copies take the codeword one
after another and the readback ends in a reset, DEBUG_UNLOCK adds the enables a passing response names, and FW_COMMIT raises
the minimums (R512 to R519, R524 to R526, R541). -/
def Obligations.LifeCycle : Prop :=
  ∀ (inst : BitVec 8) (s : State),
    let i := inst.toNat
    let p := (s.inst i).mbx.payload
    let v : State := { s with lcc := { s.lcc with nonce := none } }
    (∀ w u, Asked s i 0x30 → s.ent.mode ≠ .halted → s.supWords 8 2 = some (w, u) → Runs (.lcChallenge inst) s fun t =>
      let nonce := w.flatMap fun x => natLe 4 x.toNat
      Answered i 0 nonce s t ∧ t.lcc = { s.lcc with nonce := some nonce }
      ∧ t = { s with instances := t.instances, ent := u.ent, lcc := t.lcc })
    ∧ (∀ (package : HostRead) b s1, Asked s i 0x31 → s.readBuf i (bufAddr p 0) (bufLen p 0) package = (some b, s1) →
      let target := leAt b 6 1
      (∀ r, v.packageRefusal b s.lcc.nonce = some r → Runs (.lcTransition inst package) s fun t =>
        Answered i (resultStatus r) [BitVec.ofNat 8 r] s t ∧ Raised blkLcc 2 s t
        ∧ t.lcc = { v.lcc with target := target, result := r, cntDeny := s.lcc.cntDeny + 1#32 }
        ∧ Signals { s with instances := t.instances, lcc := t.lcc } t)
      ∧ (∀ x, v.packageRefusal b s.lcc.nonce = none → targetState target = some x →
        Runs (.lcTransition inst package) s fun t => t.lcc.nonce = none
          ∧ (∃ r, t.lcc.trans = some r ∧ r.target = target ∧ r.code = x.word ∧ r.n = addedBits s.lc x ∧ r.phase = 2
              ∧ r.since = s.g ∧ r.viaMbx = true)
          ∧ (t.inst i).mbx.taken = true ∧ (t.inst i).mbx.answer = none ∧ (∀ j, j ≠ i → t.inst j = s.inst j)
          ∧ t = { s with instances := t.instances, lcc := t.lcc })
      ∧ (v.packageRefusal b s.lcc.nonce = none → targetState target = none → Runs (.lcTransition inst package) s fun t =>
        t.otp = { s.otp with kill := 0xFFFFFF#24 } ∧ t.debugEn = 0#3 ∧ t.lcc.cntTrans = s.lcc.cntTrans + 1#32
        ∧ Answered i 0 [0#8] s t ∧ t.g = s.g + fuseBeats 24 ∧ t.keys = s.keys ∧ t.bbram = s.bbram))
    ∧ (∀ serial : BitVec 64, s.debugEn.getLsbD 0 = true → s.lcc.trans = none → s.lc = .raw →
      (s.transCheck 1 = none → Runs (.rawTestTransition serial) s fun t => t = { s with lcc := t.lcc }
        ∧ ∃ r, t.lcc.trans = some r ∧ r.target = 1 ∧ r.code = 0x0000111111111111#64 ∧ r.serial = serial ∧ r.phase = 2)
      ∧ (∀ r, s.transCheck 1 = some r → Runs (.rawTestTransition serial) s fun t => t.otp = s.otp ∧ Raised blkLcc 2 s t
        ∧ t.lcc = { s.lcc with target := 1, result := r, cntDeny := s.lcc.cntDeny + 1#32 }
        ∧ Signals { s with lcc := t.lcc } t))
    ∧ (∀ x, s.lcc.trans = some x →
      let moves (ph : Nat) (t : State) : Prop := t.lcc.trans = some { x with phase := ph, since := t.g } ∧ t.lc = s.lc
        ∧ t.keys = s.keys ∧ t.faults = s.faults
      (∀ u, x.phase = 2 → s.rootStep x = some u → Runs .lcRootStepDone s fun t =>
        t.otp = u.otp ∧ t.bbram = u.bbram ∧ t.ent = u.ent ∧ moves 3 t ∧ t.g = max s.g (x.since + usBeats 100)
        ∧ (x.target = 1 → t.otp = { s.otp with serial := s.otp.serial ||| x.serial } ∧ t.bbram = s.bbram)
        ∧ (x.target = 2 → (∃ r, t.otp = { s.otp with krMfg := some r }) ∧ t.bbram = s.bbram)
        ∧ (x.target = 3 → t.bbram.krOwn ≠ none ∧ t.bbram.valid = true ∧ t.otp.kaDigest = s.otp.kaDigest ||| x.kaDigest
            ∧ t.otp.ownerDigest = s.otp.ownerDigest ||| x.ownerDigest ∧ t.otp.cfg0 = s.otp.cfg0 ||| x.config)
        ∧ (x.target = 4 → t.bbram.krOwn = none ∧ t.bbram.krRma ≠ none ∧ t.otp = s.otp)
        ∧ (x.target = 5 → RootsErased t ∧ t.otp = s.otp))
      ∧ (x.phase = 3 →
        (x.target = 5 ∨ 50 * x.n + 900 ≤ s.lcc.vhold → Runs .lcCopyDone s fun t =>
          t.otp = { s.otp with lcA := s.otp.lcA ||| x.code } ∧ t.bbram = s.bbram ∧ moves 5 t)
        ∧ (x.target ≠ 5 → s.lcc.vhold < 50 * x.n + 900 → s.lcc.waitReset = none → Runs .lcCopyDone s fun t =>
          t.otp = { s.otp with lcA := s.otp.lcA ||| x.code } ∧ RootsKept s t
          ∧ Restarted 5 { s with otp := t.otp, hostMem := t.hostMem } t))
      ∧ (x.phase = 5 → Runs .lcCopyDone s fun t => t.otp = { s.otp with lcB := s.otp.lcB ||| x.code } ∧ t.bbram = s.bbram
        ∧ moves 6 t)
      ∧ (x.phase = 6 → Runs .lcCopyDone s fun t => t.otp = { s.otp with lcC := s.otp.lcC ||| x.code } ∧ t.bbram = s.bbram
        ∧ moves 7 t)
      ∧ (x.phase = 7 →
        (s.lcc.waitReset = none → Runs .lcReadbackDone s fun t => Restarted 5 { s with hostMem := t.hostMem } t ∧ RootsKept s t)
        ∧ (s.lcc.waitReset = some 4 → Runs .lcReadbackDone s fun t =>
          Restarted 4 { s with hostMem := t.hostMem } t ∧ RootsErased t)))
    ∧ (∀ (response : HostRead) b s1, Asked s i 0x32 → s.readBuf i (bufAddr p 0) (bufLen p 0) response = (some b, s1) →
      (∀ sc, v.debugScope b s.lcc.nonce = some sc → Runs (.debugUnlock inst response) s fun t =>
        t.lcc = { v.lcc with granted := s.lcc.granted ||| sc } ∧ Answered i 0 [0#8] s t
        ∧ t = { s with instances := t.instances, lcc := t.lcc })
      ∧ (v.debugScope b s.lcc.nonce = none → Runs (.debugUnlock inst response) s fun t =>
        t.lcc = { v.lcc with cntDeny := s.lcc.cntDeny + 1#32 } ∧ Answered i 6 [2#8] s t ∧ Raised blkLcc 0 s t
        ∧ Signals { s with instances := t.instances, lcc := t.lcc } t))
    ∧ (∀ supervisor : Bool,
      (s.debugEn.getLsbD (if supervisor then 2 else 0) = true → Runs (.jtagAccess supervisor) s fun t => t = s)
      ∧ (s.debugEn.getLsbD (if supervisor then 2 else 0) = false → Runs (.jtagAccess supervisor) s fun t =>
        t.rdata = 0#32 ∧ Raised blkLcc 0 s t ∧ Signals { s with rdata := 0#32 } t))
    ∧ (Asked s i 0x38 → s.otpFree = true →
      (s.lc ≠ .raw → s.lc ≠ .test → s.lc ≠ .scrap → s.boot.slot ≠ 2 → Runs (.fwCommit inst) s fun t =>
        t.otp = { s.otp with fwMin := max s.otp.fwMin s.boot.svn, patchMin := max s.otp.patchMin s.boot.patchSvn }
        ∧ Answered i 0 [BitVec.ofNat 8 t.otp.fwMin, BitVec.ofNat 8 t.otp.patchMin] s t ∧ t.keys = s.keys)
      ∧ (s.lc = .raw ∨ s.lc = .test ∨ s.lc = .scrap ∨ s.boot.slot = 2 → Runs (.fwCommit inst) s fun t =>
        Answered i 5 [] s t ∧ t = { s with instances := t.instances }))

/-- Power, PERST_N, resets and the phases of bring-up complete: each reset has its cause and keeps what R532 keeps, and from
the release of PERST_N the phases follow one another, halt with the codes of R543, and end at readiness (R531 to R549, R520,
R335, R568). -/
def Obligations.ResetAndBringUp : Prop :=
  ∀ (s : State),
    (s.boot.power = true → Runs .batteryEnter s fun t => t.boot.power = false ∧ t.tmp.battery = true ∧ t.dram = []
      ∧ t.alarm = false ∧ t.keys = Keys.reset ∧ t.engines = [] ∧ t.nor = s.nor ∧ t.tmp.stuck = s.tmp.stuck
      ∧ t.tmp.evid = s.tmp.evid ∧ (s.lcc.trans = none → t.otp = s.otp ∧ RootsKept s t))
    ∧ (s.boot.power = false →
      (Runs .powerOn s fun t => Restarted 1 s t ∧ RootsKept s t ∧ t.boot.power = true ∧ t.boot.perst = true
        ∧ t.tmp.battery = false ∧ t.tmp.stuck = s.tmp.stuck ∧ t.tmp.evid = s.tmp.evid)
      ∧ Runs .vbatLoss s fun t => t.tmp = Tmp.reset ∧ t.bbram = Bbram.reset ∧ t.boot.failsA = 0 ∧ t.boot.failsB = 0
        ∧ t.evr.lgUsed = 0 ∧ t.evr.opsec = 0 ∧ t.evr.pcyc = 0 ∧ t.otp = s.otp ∧ t.nor = s.nor)
    ∧ (s.boot.power = true → s.boot.perst = false → Runs .perstNAssert s fun t => t.boot.perst = true ∧ t.boot.phase = 0
      ∧ t.boot.cause = 2 ∧ t.keys = Keys.reset ∧ (s.lcc.trans = none → Restarted 2 s t ∧ RootsKept s t))
    ∧ (∀ strap : BitVec 2, s.boot.power = true → s.boot.perst = true → Runs (.perstNRelease strap) s fun t =>
      t = { s with boot := { s.boot with
        perst := false, strap := strap.toNat, phase := 1, startG := s.g, wdFrom := s.g } })
    ∧ (∀ key : BitVec 16, s.boot.ready = true →
      (key = 0xD1E7#16 → s.lcc.trans = none → Runs (.devReset key) s fun t => Restarted 8 s t ∧ RootsKept s t)
      ∧ (key = 0xD1E7#16 → s.lcc.trans ≠ none → Runs (.devReset key) s fun t => t.lcc.waitReset ≠ none ∧ t = { s with lcc := t.lcc })
      ∧ (key ≠ 0xD1E7#16 → Runs (.devReset key) s fun t => Raised blkHiu 11 s t ∧ Signals s t))
    ∧ (s.boot.power = true → s.boot.perst = false → s.lcc.trans = none → Runs .lockstepDisagree s fun t =>
      Restarted 6 { s with hostMem := t.hostMem } t ∧ RootsKept s t
      ∧ (s.booting = true → 3 ≤ s.boot.phase → s.boot.slot = 0 → s.boot.image ≠ [] →
          t.boot.failsA = min 2 (s.boot.failsA + 1) ∧ t.boot.failsB = s.boot.failsB))
    ∧ (s.booting = true →
      let b := s.boot
      let at_ (us : Nat) (t : State) : Prop := t.g = max s.g (b.startG + usBeats us)
      let halts (i : Instr) (code : Nat) : Prop := Runs i s fun t => t.boot.halted = true ∧ t.boot.haltCode = code
        ∧ t.faultPin = true ∧ t.boot.ready = false ∧ t.keys = s.keys ∧ t.bbram = s.bbram
      let same (t : State) : Prop := t.keys = s.keys ∧ t.bbram = s.bbram ∧ t.hostMem = s.hostMem ∧ t.maus = s.maus
        ∧ t.clusters = s.clusters ∧ t.instances = s.instances
      (b.phase ≠ 0 → b.rootWait = none → s.lcc.trans = none → Runs .watchdogExpiry s fun t => Restarted 7 s t ∧ RootsKept s t)
      ∧ (b.phase = 1 → Runs .pllLock s fun t => t.boot = { b with phase := 2 } ∧ at_ 500 t ∧ same t ∧ t.otp = s.otp)
      ∧ (b.phase = 2 →
        (let o : Otp := { s.otp with evidence := s.otp.evidence + min s.tmp.evid (512 - s.otp.evidence) }
         (∀ x, s.otp.state = some x → x ≠ .scrap → Runs (.otpLoad false) s fun t => t.lc = x ∧ t.lcc.decoded = true
            ∧ t.lcc.config = s.otp.config ∧ t.otp = o ∧ t.tmp.evid = 0 ∧ t.boot.phase = 3
            ∧ t.keys = s.keys ∧ t.bbram = s.bbram))
        ∧ (s.otp.state = none ∨ s.otp.state = some .scrap → halts (.otpLoad false) 6) ∧ halts (.otpLoad true) 2)
      ∧ (s.lcc.decoded = true → b.sramDone = false → Runs .sramClearDone s fun t => t.boot = { b with sramDone := true }
        ∧ at_ 7000 t ∧ same t ∧ t.otp = s.otp)
      ∧ (∀ (ok0 ok1 : Bool) (gib0 gib1 speed : BitVec 8), s.lcc.decoded = true → b.dramDone = false →
        ((ok0 && ok1) = true → Runs (.dramTrainingDone ok0 ok1 gib0 gib1 speed) s fun t => t.boot = { b with dramDone := true }
          ∧ t.gov.gib0 = gib0.toNat ∧ t.gov.gib1 = gib1.toNat ∧ t.gov.speed = speed.toNat ∧ at_ 42000 t ∧ same t)
        ∧ ((ok0 && ok1) = false → halts (.dramTrainingDone ok0 ok1 gib0 gib1 speed) 5))
      ∧ (b.phase = 3 → b.slot = 0 → b.image = [] →
        let okA := s.firmwareOk s.nor.slotA
        let okB := s.firmwareOk s.nor.slotB
        let useA := okA && decide (b.failsA < 2)
        let useB := okB && decide (b.failsB < 2)
        let takes (n : Nat) (x : Bytes) : Prop := Runs .slotSelection s fun t => t.boot.slot = n ∧ t.boot.image = x
          ∧ t.boot.phase = 4 ∧ t.boot.aValid = okA ∧ t.boot.bValid = okB ∧ at_ 18500 t ∧ same t
        (useA = true → (useB = false ∨ imgSvn s.nor.slotB < imgSvn s.nor.slotA) → takes 0 s.nor.slotA)
        ∧ (useB = true → (useA = false ∨ imgSvn s.nor.slotA < imgSvn s.nor.slotB) → takes 1 s.nor.slotB)
        ∧ (okA = false → okB = false → (s.sd.present = false → halts .slotSelection 1)
            ∧ (s.sd.present = true → Runs .slotSelection s fun t => t.boot.slot = 3 ∧ t.boot.phase = 3 ∧ same t)))
      ∧ (b.phase = 3 → b.slot = 3 → ∀ x : Bytes,
        (s.sd.present = true → s.firmwareOk x = true → Runs (.cardRecovery (.ok x)) s fun t => t.boot.slot = 2
          ∧ t.boot.image = x ∧ t.boot.phase = 4 ∧ t.g = s.g + cardReadBeats x.length ∧ same t)
        ∧ (s.firmwareOk x = false → halts (.cardRecovery (.ok x)) 1) ∧ halts (.cardRecovery .busError) 1)
      ∧ (b.phase = 4 →
        (s.imageSigned b.image = true → Runs .imageSignatureCheck s fun t => t.boot.phase = 5
          ∧ t.boot.fwVer = BitVec.ofNat 32 (imgVersion b.image) ∧ t.boot.svn = imgSvn b.image ∧ at_ 26000 t ∧ same t)
        ∧ (s.imageSigned b.image = false → halts .imageSignatureCheck 1))
      ∧ (b.phase = 5 →
        (s.bbramLost = false → Runs .bbramCheck s fun t => t.boot.phase = 6 ∧ t.keys.bbramOk = true ∧ t.bbram = s.bbram
          ∧ t.otp = s.otp ∧ t.keys.slots = s.keys.slots)
        ∧ (∀ r u, s.bbramLost = true → s.lc = .owned ∨ s.lc = .rma → s.drawRoot = some (r, u) → Runs .bbramCheck s fun t =>
          t.boot.phase = 6 ∧ t.keys.bbramOk = false ∧ t.boot.bbramLost = true ∧ t.bbram.valid = true
          ∧ t.bbram.krOwn = (if s.lc = .owned then some r else none) ∧ t.bbram.krRma = (if s.lc = .rma then some r else none)
          ∧ t.otp.era = (if s.otp.era < 64 then s.otp.era + 1 else s.otp.era) ∧ Raised blkKt 2 s t ∧ Raised blkLcc 3 s t)
        ∧ (s.bbramLost = true → s.lc ≠ .owned → s.lc ≠ .rma → Runs .bbramCheck s fun t => t.boot.phase = 6
          ∧ t.boot.bbramLost = true ∧ t.bbram.valid = true ∧ t.bbram.krOwn = none ∧ t.bbram.krRma = none ∧ Raised blkKt 2 s t)
        ∧ (s.bbramLost = true → s.lc = .owned ∨ s.lc = .rma → s.drawRoot = none →
          (s.entDead = true → halts .bbramCheck 3)
          ∧ (s.entDead = false → Runs .bbramCheck s fun t => t.boot = { b with rootWait := some (b.rootWait.getD s.g) }
            ∧ t = { s with boot := t.boot })))
      ∧ (b.phase = 6 →
        let x := s.nor.patch
        let ok := s.patchOk x && decide (s.otp.patchMin ≤ imgSvn x)
        Runs .mauPatchLoad s fun t => t.boot.phase = 7 ∧ at_ 36000 t ∧ t.keys = s.keys
          ∧ (∀ u, u < 32 → t.mau u =
              if ok then { s.mau u with patch := patchRam (imgBody x), patchVer := imgVersion x % 65536, locked := true }
              else if s.otp.patchMin = 0 then { s.mau u with patch := [], patchVer := 0, locked := true }
              else { s.mau u with down := true, locked := true })
          ∧ t.boot.patchSvn = (if ok then imgSvn x else b.patchSvn))
      ∧ (∀ mauFail : BitVec 32, b.phase = 7 → b.dramDone = true →
        (Runs (.knownAnswerTests true true mauFail) s fun t => t.boot.katDone = true
          ∧ ((∃ j, j < 16 ∧ (s.cl j).selftest = 0xFF) → t.boot.phase = 8 ∧ at_ 42000 t)
          ∧ ((∀ j, j < 16 → (s.cl j).selftest ≠ 0xFF) → t.boot.phase = 9)
          ∧ (∀ u, u < 32 → t.mau u = if mauFail.getLsbD u then { s.mau u with down := true } else s.mau u) ∧ t.keys = s.keys)
        ∧ halts (.knownAnswerTests false true mauFail) 4 ∧ halts (.knownAnswerTests true false mauFail) 4)
      ∧ (∀ (cluster : BitVec 4) (result : BitVec 8), 6 ≤ b.phase → b.phase ≤ 8 → (s.cl cluster.toNat).selftest = 0xFF → result ≠ 0xFF#8 →
        Runs (.clusterSelfTest cluster result) s fun t =>
          t.cl cluster.toNat = { s.cl cluster.toNat with selftest := result.toNat }
          ∧ (∀ j, j ≠ cluster.toNat → t.cl j = s.cl j) ∧ t.keys = s.keys ∧ t.maus = s.maus
          ∧ (b.phase = 8 → (∀ j, j < 16 → j ≠ cluster.toNat → (s.cl j).selftest ≠ 0xFF) → t.boot = { b with phase := 9 } ∧ at_ 175000 t)
          ∧ (b.phase ≠ 8 ∨ (∃ j, j < 16 ∧ j ≠ cluster.toNat ∧ (s.cl j).selftest = 0xFF) → t = { s with clusters := t.clusters }))
      ∧ (b.phase = 9 → b.evrDone = true → b.sramDone = true → b.dramDone = true → Runs .readiness s fun t =>
        t.boot.ready = true ∧ at_ 178000 t ∧ bit32 (t.reg 0x100004) 0 = true ∧ t.budgetStart = t.g
        ∧ t.keys.sweepDue = t.g + 390625000 ∧ t.keys.remaskDue = t.g + 2343750000 ∧ t.keys.slots = s.keys.slots
        ∧ (b.slot = 0 → t.boot.failsA = 0) ∧ (b.slot = 1 → t.boot.failsB = 0)
        ∧ (s.tmp.battRec ≠ 0#32 → Raised blkTmp 11 s t) ∧ t.maus = s.maus ∧ t.clusters = s.clusters))

/-! ## Fault registers, event recorder, governor -/

/-- The fault and recorder commands complete: FSTAT bits clear and the recorded source's bit frees its syndrome, FFORCE
raises what it names, the recorder counts a repeat or writes a record and keeps it in the last-gasp file when the ring is
out of use, a checkpoint starts and ends with its record in the flash, the ring is restored, a routed reset is taken, and
the governor takes and undoes its actions in order (R36, R585 to R588, R592 to R607, R646 to R649). -/
def Obligations.RecorderAndGovernor : Prop :=
  ∀ (s : State),
    let e := s.evr
    (∀ (block : BitVec 6) (mask : BitVec 32), s.boot.ready = true → block.toNat < 58 →
      let b := block.toNat
      let f := s.fault b
      (Runs (.fstatClear block mask) s fun t =>
        let g := t.fault b
        let own := bit32 f.fsyn0 31 && bit32 mask (fld f.fsyn0 (sourceShift b) (31 - sourceShift b))
        g.fstat = f.fstat &&& ~~~mask ∧ g.fen = f.fen ∧ g.fsyn1 = f.fsyn1
        ∧ (own = true → bit32 g.fsyn0 31 = false ∧ g.fmerge = 0) ∧ (own = false → g.fsyn0 = f.fsyn0 ∧ g.fmerge = f.fmerge)
        ∧ (∀ j, j ≠ b → t.fault j = s.fault j) ∧ t = { s with faults := t.faults })
      ∧ (b ≠ blkTmp → b ≠ blkSup ∨ bit32 mask 0 = false → Runs (.fforce block mask) s fun t =>
        (∀ n, n < sourceCount b → bit32 mask n = true → Raised b n s t) ∧ t.otp = s.otp)
      ∧ (∀ n level, b = blkTmp → n < 14 → mask = BitVec.ofNat 32 (2 ^ n) → s.tmp.forceLevel n = some level →
        Runs (.fforce block mask) s (AlarmActs n level s.tmp s))
      ∧ (b = blkSup → mask = 1#32 → s.lcc.trans = none → Runs (.fforce block mask) s fun t =>
        Restarted 6 { s with hostMem := t.hostMem } t ∧ RootsKept s t))
    ∧ (∀ ch : Bool, s.boot.dramDone = true → Runs (.dramTrainingLost ch) s fun t =>
      t.gov = (if ch then { s.gov with ok1 := false } else { s.gov with ok0 := false }) ∧ Raised blkMem 4 s t
      ∧ Signals { s with gov := t.gov } t)
    ∧ (∀ o rest, e.restored = true → e.waiting = o :: rest →
      let seq := (e.seq + 1) % 2 ^ 32
      let same (r : RingRec) : Prop := r.type = o.type ∧ (recBody (e.bytesOf r)).take 4 = o.body.take 4
        ∧ recRepeat (e.bytesOf r) < 0xFFFF
      let lastGasp (i : Instr) : Prop := Runs i s fun t => t.evr.seq = seq ∧ t.evr.recs = e.recs
        ∧ (e.lgUsed < 16 → t.evr.lgUsed = e.lgUsed + 1 ∧ t.evr.lg = wrBytes e.lg (0x60 * e.lgUsed) (e.record o seq o.rep true))
        ∧ (16 ≤ e.lgUsed → t.evr.lg = e.lg ∧ t.evr.lgDrop = min 31 (e.lgDrop + 1)) ∧ t.keys = s.keys ∧ t.sch = s.sch
      (e.ringOk = true →
        (∀ r, e.newest = some r → same r → 20 ≤ r.len → recRepeat (e.bytesOf r) + 1 + o.rep ≤ 0xFFFF →
          Runs (.evrRecordWrite none) s fun t => t.evr.waiting = rest ∧ t.evr.seq = e.seq
            ∧ t.evr.bytesOf r = recWithRepeat (e.bytesOf r) (recRepeat (e.bytesOf r) + 1 + o.rep)
            ∧ t.evr.recs.length = e.recs.length ∧ t = { s with evr := t.evr })
        ∧ ((∀ r, e.newest = some r → ¬ same r) → Runs (.evrRecordWrite none) s fun t =>
          t.evr.seq = seq ∧ (∃ r, t.evr.recs.getLast? = some r ∧ t.evr.bytesOf r = e.record o seq o.rep false
            ∧ r.seq = recSeq (e.record o seq o.rep false) ∧ r.dirty = true)
          ∧ (o.flags % 4 = 2 ∨ o.type = 0x405 → t.evr.ckptReq = true) ∧ (e.recs = [] → t.evr.waiting = rest)
          ∧ Signals { s with evr := t.evr } t)
        ∧ (∀ a, lastGasp (.evrRecordWrite (some a))
          ∧ Runs (.evrRecordWrite (some a)) s fun t => t.evr.ringOk = false ∧ Raised blkSup 2 s t))
      ∧ (e.ringOk = false → lastGasp (.evrRecordWrite none)))
    ∧ (e.restored = true → e.norOk = true → e.ckptBusy = false →
      (e.ckptReq = true → Runs .checkpointStart s fun t =>
        t = { s with evr := { e with ckptBusy := true, ckptReq := false, lastCkpt := s.g, ckptUpTo := e.seq } })
      ∧ (e.ckptReq = false → Runs .checkpointStart s fun t => t.evr.ckptBusy = true ∧ t.evr.ckptUpTo = e.seq
        ∧ t.evr.lastCkpt = t.g ∧ t.g = max s.g (e.lastCkpt + s.ckptPeriod) ∧ t.evr.ring = e.ring ∧ t.evr.recs = e.recs
        ∧ t = { s with g := t.g, evr := t.evr }))
    ∧ (e.ckptBusy = true →
      (Runs (.checkpointDone none) s fun t => t.evr.ckptBusy = false ∧ t.evr.ring = e.ring
        ∧ t.nor.ckpt.flatten.getLast? = some e.checkpointRec
        ∧ ((∀ r ∈ e.recs, r.again = false) → ∀ r ∈ t.evr.recs, r.dirty = true → e.ckptUpTo < r.seq)
        ∧ t = { s with evr := t.evr, nor := { s.nor with ckpt := t.nor.ckpt } })
      ∧ ∀ a, Runs (.checkpointDone (some a)) s fun t => t.evr.norOk = false ∧ t.evr.ckptBusy = false ∧ t.nor = s.nor
        ∧ Raised blkSup 2 s t ∧ Signals { s with evr := t.evr } t)
    ∧ (s.booting = true → 6 ≤ s.boot.phase → s.boot.evrDone = false →
      let pcyc (n : Nat) : Nat := if e.cycleDue then min 0xFFFFFF (n + 1) else n
      let starts (t : State) : Prop := t.boot = { s.boot with evrDone := true } ∧ t.evr.restored = true
        ∧ t.evr.lastCkpt = t.g ∧ t.g = max s.g (s.boot.startG + usBeats 59000) ∧ t.nor = s.nor ∧ t.keys = s.keys
      (Runs (.evrRestore none) s fun t => starts t ∧ e.opsec ≤ t.evr.opsec ∧ (e.cycleDue = true → 0 < t.evr.pcyc) ∧ t.evr.cycleDue = false
        ∧ (s.nor.ckpt = [] → t.evr.recs = e.recs ∧ t.evr.pcyc = pcyc e.pcyc))
      ∧ ∀ a, Runs (.evrRestore (some a)) s fun t => starts t ∧ t.evr.norOk = false ∧ t.evr.recs = e.recs
        ∧ t.evr.pcyc = pcyc e.pcyc ∧ Raised blkSup 2 s t)
    ∧ (s.boot.ready = true →
      (Runs .ckptNow s fun t => t = { s with evr := { e with ckptReq := e.norOk } })
      ∧ (Runs .lgClear s fun t => t = { s with evr := { e with lg := [], lgUsed := 0, lgDrop := 0 } })
      ∧ (∀ limit : BitVec 8, Runs (.powerLimitWrite limit) s fun t => t.softLimit = limit.toNat
        ∧ (∀ a, a ≠ 0xE00010 → t.reg a = s.reg a) ∧ t = { s with regs := t.regs }))
    ∧ (∀ g due rest, e.resetWait = (g, due) :: rest → s.lcc.trans = none → Runs .routeReset s fun t =>
      Restarted 9 s t ∧ RootsKept s t)
    ∧ (∀ demand : BitVec 16, s.boot.power = true → s.boot.perst = false →
      let excess := 100 * s.powerLimit < demand.toNat
      (¬ excess → Runs (.governorEvaluation demand) s fun t => t.gov.acts = s.gov.acts ∧ t.gov.demand = demand.toNat
        ∧ t = { s with gov := t.gov })
      ∧ (∀ c, excess → c < 16 → (s.cl c).capStep = 0 → (∀ j, c < j → j < 16 → (s.cl j).capStep ≠ 0) →
        Runs (.governorEvaluation demand) s fun t => t.gov.acts = .step c :: s.gov.acts ∧ (t.cl c).capStep = 1
          ∧ (t.cl c).csm = (s.cl c).csm ∧ (∀ j, j ≠ c → t.cl j = s.cl j) ∧ t = { s with gov := t.gov, clusters := t.clusters })
      ∧ (∀ c, excess → c < 16 → (∀ j, j < 16 → (s.cl j).capStep ≠ 0) → (s.cl c).capStep = 1 →
        (∀ j, c < j → j < 16 → (s.cl j).capStep ≠ 1) →
        Runs (.governorEvaluation demand) s fun t => t.gov.acts = .step c :: s.gov.acts ∧ (t.cl c).capStep = 2
          ∧ (∀ j, j ≠ c → t.cl j = s.cl j) ∧ t = { s with gov := t.gov, clusters := t.clusters })
      ∧ (excess → (∀ j, j < 16 → 2 ≤ (s.cl j).capStep) →
        (s.sch.holdBulk = false → Runs (.governorEvaluation demand) s fun t => t.gov.acts = .bulk :: s.gov.acts
          ∧ t = { s with gov := t.gov, sch := { s.sch with holdBulk := true } })
        ∧ (s.sch.holdBulk = true → s.sch.holdNormal = false → Runs (.governorEvaluation demand) s fun t =>
          t.gov.acts = .normal :: s.gov.acts ∧ t = { s with gov := t.gov, sch := { s.sch with holdNormal := true } })))
    ∧ (∀ g a rest, s.gov.lowSince = some g → s.gov.acts = a :: rest → Runs .governorRelease s fun t =>
      t.gov.acts = rest ∧ t.gov.lowSince = some t.g ∧ t.g = max s.g (g + msBeats 1)
      ∧ (match a with
        | .step c => (t.cl c).capStep = (s.cl c).capStep - 1 ∧ (∀ j, j ≠ c → t.cl j = s.cl j) ∧ t.sch = s.sch
        | .bulk => t.clusters = s.clusters ∧ t.sch = { s.sch with holdBulk := false }
        | .normal => t.clusters = s.clusters ∧ t.sch = { s.sch with holdNormal := false })
      ∧ t.keys = s.keys ∧ t.hostMem = s.hostMem)
    ∧ (∀ reserve : BitVec 16, s.boot.power = true → Runs (.vholdSample reserve) s fun t =>
      t = { s with lcc := { s.lcc with vhold := min 16000 reserve.toNat } })

/-! ## Card, flash and management port; registers -/

/-- The card commands, FW_WRITE and the management port complete: a card is detected and initialised, the journal is listed
and read, a new entry is written block by block until its number is answered, an uncertain or failed write is answered as
such, an accepted image stands in the slot that does not run, and a management transaction is acknowledged with its data or
not at all (R611 to R633). -/
def Obligations.CardAndManagement : Prop :=
  ∀ (inst : BitVec 8) (s : State),
    let i := inst.toNat
    let p := (s.inst i).mbx.payload
    let d := s.sd
    let up : Prop := d.present = true ∧ d.refused = false ∧ d.ready = true ∧ d.job = none
    let r := s.sdRetune
    let only (t : State) : Prop := t = { s with instances := t.instances, sd := t.sd, freeCtr := t.freeCtr, hostMem := t.hostMem }
    (∀ present : Bool, s.boot.power = true → s.boot.perst = false → present ≠ d.present →
      Runs (.cardDetectChange present) s fun t => t.sd.present = present ∧ t.sd.ready = false ∧ t.sd.part = []
        ∧ t.sd.blocks = 0 ∧ t.sd.job = d.job ∧ Raised blkSdh 1 s t ∧ Signals { s with sd := t.sd } t)
    ∧ (∀ card : CardInit, d.present = true → d.ready = false → d.refused = false →
      (∀ b, card.supported = true → card.partition = some b → Runs (.cardInitDone card) s fun t => t.sd.ready = true
        ∧ t.sd.refused = false ∧ t.sd.part = memOf b ∧ t.sd.blocks = b.length / 512 ∧ t.sd.capGib = card.capGib.toNat
        ∧ (card.switchOk = false → t.sd.v18 = false ∧ (t.sd.mode = 1 ∨ t.sd.mode = 2)) ∧ t = { s with sd := t.sd })
      ∧ (card.supported = false ∨ card.partition = none → Runs (.cardInitDone card) s fun t => t.sd.ready = false
        ∧ t.sd.refused = true ∧ t = { s with sd := t.sd }))
    ∧ (Asked s i 0x40 →
      (up → Runs (.sdInfo inst false) s fun t => t.sd = r.sd ∧ only t ∧ t.hostMem = s.hostMem
        ∧ Answered i 0 (natLe 4 0 ++ natLe 4 r.sdhStat.toNat ++ natLe 4 (d.lastJseq.getD 0)
            ++ natLe 4 (d.blocks - d.journal.2)) s t)
      ∧ (up → Runs (.sdInfo inst true) s fun t => Answered i 8 [7#8] s t ∧ Raised blkSdh 3 s t ∧ t.sd.retune = true)
      ∧ (d.present = false → Runs (.sdInfo inst false) s fun t => Answered i 5 [1#8] s t ∧ t = { s with instances := t.instances })
      ∧ (d.present = true → d.refused = true → Runs (.sdInfo inst false) s fun t => Answered i 5 [2#8] s t
        ∧ t = { s with instances := t.instances }))
    ∧ (let l := d.journal.1
       let tab := l.flatMap fun e => natLe 4 e.jseq ++ natLe 1 e.kind ++ natLe 3 0 ++ natLe 4 e.payLen ++ natLe 4 e.block
       Asked s i 0x41 → up → tab.length ≤ bufLen p 0 → s.windowOk i (bufAddr p 0) tab.length true = true →
       Runs (.sdList inst false) s fun t => Answered i 0 (natLe 4 0 ++ natLe 4 l.length) s t ∧ only t ∧ t.sd = r.sd
         ∧ t.hostMem = wrBytes s.hostMem (bufAddr p 0) tab)
    ∧ (Asked s i 0x42 → up →
      (∀ b, d.find (leAt p 0 4) = (0, b) → b.length ≤ bufLen p 4 → s.windowOk i (bufAddr p 4) b.length true = true →
        Runs (.sdRead inst false) s fun t => Answered i 0 [0#8] s t ∧ only t ∧ t.sd = r.sd
          ∧ t.hostMem = wrBytes s.hostMem (bufAddr p 4) b)
      ∧ (∀ b, d.find (leAt p 0 4) = (5, b) → Runs (.sdRead inst false) s fun t => Answered i 6 [5#8] s t ∧ only t)
      ∧ (∀ b, d.find (leAt p 0 4) = (6, b) → Runs (.sdRead inst false) s fun t => Answered i 6 [6#8] s t ∧ Raised blkSdh 3 s t))
    ∧ (let begins (c : Bool → Instr) (kind : Nat) (b : Bytes) : Prop :=
         let next := match d.lastJseq with | some k => (k + 1) % 2 ^ 32 | none => 1
         (d.journal.2 + (b.length + 511) / 512 + 2 ≤ d.blocks → Runs (c false) s fun t => (∃ j, t.sd.job = some j
            ∧ j.owed = some i ∧ j.kind = kind ∧ j.jseq = next ∧ j.blocks = s.entryBlocks kind next d.journal.2 b)
            ∧ (t.inst i).mbx.taken = true ∧ (t.inst i).mbx.answer = none ∧ t.sd.part = d.part ∧ only t)
         ∧ (d.blocks < d.journal.2 + (b.length + 511) / 512 + 2 → Runs (c false) s fun t => Answered i 0x0B [4#8] s t ∧ only t)
         ∧ (Runs (c true) s fun t => Answered i 5 [3#8] s t ∧ Raised blkSdh 0 s t ∧ t.sd.job = none ∧ t.sd.part = d.part)
       (∀ (payload : HostRead) b s1, Asked s i 0x43 → up → 1 ≤ leAt p 0 1 → leAt p 0 1 ≤ 3 →
         r.readBuf i (bufAddr p 4) (bufLen p 4) payload = (some b, s1) → begins (.sdWrite inst payload) (leAt p 0 1) b)
       ∧ (Asked s i 0x44 → up → begins (.sdLogExport inst) 4 s.evr.export))
    ∧ (∀ j o, d.job = some j → j.owed = some o → (s.inst o).mbx.busy = true → (s.inst o).mbx.answer = none →
      let b := j.blocks.headD (0, [])
      (∀ wp : Bool, d.present = true → j.blocks.drop 1 = [] → Runs (.sdWriteBusyEnd .confirmed wp) s fun t =>
        Answered o 0 (natLe 4 0 ++ natLe 4 j.jseq) s t ∧ t.sd.part = wrBytes d.part (512 * b.1) b.2 ∧ t.sd.job = none
        ∧ t.sd.cntWrite = d.cntWrite + 1#32 ∧ only t)
      ∧ (d.present = true → j.blocks.drop 1 ≠ [] → Runs (.sdWriteBusyEnd .confirmed false) s fun t =>
        t.sd.part = wrBytes d.part (512 * b.1) b.2 ∧ t.sd.job = some { j with blocks := j.blocks.drop 1 }
        ∧ t = { s with sd := t.sd })
      ∧ (∀ wp : Bool, Runs (.sdWriteBusyEnd .noResponse wp) s fun t => Answered o 8 [8#8] s t ∧ Raised blkSdh 4 s t
        ∧ t.sd.job = none ∧ t.sd.cntUncertain = d.cntUncertain + 1#32 ∧ t.sd.part = d.part)
      ∧ (∀ wp : Bool, d.present = true → Runs (.sdWriteBusyEnd .errorBits wp) s fun t => Answered o 8 [7#8] s t
        ∧ Raised blkSdh 2 s t ∧ t.sd.job = none
        ∧ ∀ a, a < 512 * b.1 ∨ 512 * b.1 + 512 ≤ a → rdByte t.sd.part a = rdByte d.part a)
      ∧ (Runs (.sdTimeout .busy) s fun t => Answered o 8 [7#8] s t ∧ Raised blkSdh 3 s t ∧ t.sd.job = none
        ∧ t.g = s.g + msBeats 500)
      ∧ (Runs (.sdTimeout .response) s fun t => Answered o 8 [7#8] s t ∧ Raised blkSdh 2 s t ∧ t.sd.job = none ∧ t.g = s.g))
    ∧ (d.present = true → d.ready = false → d.refused = false → Runs (.sdTimeout .init) s fun t => t.sd = { d with refused := true }
      ∧ Raised blkSdh 2 s t ∧ t.g = s.g + beatsPerSec)
    ∧ (s.sdReading = true → Runs (.sdTimeout .readData) s fun t => Answered 0 8 [7#8] s t ∧ Raised blkSdh 3 s t ∧ t.sd = d
      ∧ t.g = s.g + msBeats 100)
    ∧ (let stands (c : Instr) (b : Bytes) : Prop :=
         let x := b.take (4736 + leAt b 16 4)
         (s.imageAccepted b = true → Runs c s fun t => Answered i 0 [0#8] s t ∧ t.nor.ckpt = s.nor.ckpt
            ∧ (leAt b 6 1 = 2 → t.nor = { s.nor with patch := x } ∧ t.boot = s.boot)
            ∧ (leAt b 6 1 ≠ 2 → s.boot.slot = 0 → t.nor = { s.nor with slotB := x } ∧ t.boot = { s.boot with failsB := 0, bValid := true, bSvn := imgSvn x })
            ∧ (leAt b 6 1 ≠ 2 → s.boot.slot ≠ 0 → t.nor = { s.nor with slotA := x } ∧ t.boot = { s.boot with failsA := 0, aValid := true, aSvn := imgSvn x }))
         ∧ (s.imageAccepted b = false → Runs c s fun t => Answered i 6 [9#8] s t ∧ t.nor = s.nor ∧ t.boot = s.boot)
       Asked s i 0x39 →
       (∀ (image : HostRead) b s1, leAt p 0 1 = 0 → s.readBuf i (bufAddr p 8) (bufLen p 8) image = (some b, s1) →
         stands (.fwWrite inst image) b)
       ∧ (∀ (image : HostRead) b, leAt p 0 1 = 1 → up → d.find (leAt p 4 4) = (0, b) → stands (.fwWrite inst image) b))
    ∧ (∀ bus : MgtBus, s.boot.power = true → s.boot.perst = false →
      let m := s.mgt
      let acks (c : Instr) (code : Nat) (x : Mgt) (data : Bytes) : Prop := s.busOk bus = true → s.mgtOpen code = true →
        Runs c s fun t => t = { s with mgt := { x with bus := mgtBusCode bus, lastCmd := code, answer := some data } }
      let on := { m with offset := (m.offset + 64) % 2 ^ 32 }
      (s.lcc.decoded = true → acks (.getId bus) 0x01 m (natLe 2 0x1E5C ++ natLe 2 0x5120 ++ natLe 8 s.otp.serial.toNat
          ++ natLe 4 s.lccStat.toNat ++ natLe 4 s.boot.fwVer.toNat ++ List.replicate 12 0#8))
      ∧ (s.ent.started = true → s.evr.restored = true → acks (.getStatus bus) 0x02 m
          ([s.supBootStat, s.supResetCause, s.tmpStat, s.tmpTemp, s.tmpEvidence, s.entStat, s.evrStat, s.hiuStat].flatMap
            fun w => natLe 4 w.toNat))
      ∧ (∀ offset : BitVec 32, acks (.setOffset bus offset) 0x03 { m with offset := offset.toNat } [])
      ∧ acks (.certLen bus) 0x04 m (natLe 4 s.certChain.length)
      ∧ acks (.readCert bus) 0x05 on (padTo 64 (s.certChain.drop m.offset))
      ∧ (∀ nonce : Bytes, bit32 (s.reg 0xD00004) 2 = true → m.attest ≠ 1 → nonce.length = 32 → acks (.attestStart bus nonce) 0x10
          { m with offset := 0, nonce := nonce, report := [], attest := if s.alarm then 3 else 1 } [])
      ∧ acks (.attestState bus) 0x11 m (natLe 1 m.attest)
      ∧ (m.attest = 2 → acks (.readReport bus) 0x12 on (padTo 64 (m.report.drop m.offset)))
      ∧ (s.busOk bus = false → Runs (.getId bus) s fun t => t = { s with mgt := { m with answer := none } })
      ∧ (∀ code : BitVec 8, s.mgtOpen code.toNat = false → Runs (.mgtUnlistedCode code) s fun t =>
          t = { s with mgt := { m with answer := none } })
      ∧ (∀ addr : BitVec 7, bit32 (s.reg 0xD00004) 1 = true → Runs (.i3cAddressAssign addr) s fun t =>
          t = { s with mgt := { m with dyn := addr.toNat, bus := 1 } }))
    ∧ (s.mgt.attest = 1 → Runs .attestReportReady s fun t =>
      t = { s with mgt := { s.mgt with attest := 2, report := s.report 1 s.mgt.nonce } })

/-- Register accesses complete: before readiness a write only raises its event and a read answers 0 outside the list of
R544, an access the map does not list or a partial write changes nothing but fault state, a read returns the bits whose
fields carry the reader's letter and leaves the device as it was, and plain registers hold what was written to them (R12 to
R18, R43 to R46, R399, R402, R523, R544, R663). -/
def Obligations.RegisterAccess : Prop :=
  ∀ (s : State),
    (∀ (offset : BitVec 26) (value : BitVec 32) (enables : BitVec 4) (image : HostRead),
      let a := offset.toNat / 4 * 4
      let writes (p : Party) (en : BitVec 4) (P : State → Prop) : Prop := Runs (.registerWrite p offset value en image) s P
      (s.boot.ready = false → writes .manager enables fun t => Signals s t
        ∧ (s.boot.power = true → s.boot.perst = false → Raised blkHiu 28 s t))
      ∧ (s.boot.ready = true → s.pfView a = none → writes .manager enables (Signals s))
      ∧ (s.boot.ready = true → enables ≠ 15#4 → writes .manager enables (Signals s))
      ∧ (∀ v, s.boot.ready = true → s.pfView a = some v → (v.rw ||| v.w1) &&& v.m = 0#32 → writes .manager enables (Signals s))
      ∧ (s.boot.ready = true →
        (a = 0x100020 ∨ a = 0x100024 ∨ a = 0x100028 → writes .manager 15#4 fun t => t.reg a = value
          ∧ (∀ x, x ≠ a → t.reg x = s.reg x) ∧ t = { s with regs := t.regs })
        ∧ (a = 0x104 → writes .manager 15#4 fun t => t.fault blkHiu = { s.fault blkHiu with fen := value }
          ∧ (∀ b, b ≠ blkHiu → t.fault b = s.fault b) ∧ t = { s with faults := t.faults })
        ∧ (∀ g, g < 560 → a = 0xB01000 + 4 * g → writes .manager 15#4 fun t =>
          fld (t.route g) 8 6 = max 17 (fld value 8 6) ∧ fld (t.route g) 0 5 = fld value 0 5
          ∧ (∀ x, x ≠ g → t.route x = s.route x) ∧ t = { s with evr := { s.evr with routes := t.evr.routes } })
        ∧ (a = 0xA0002C → writes .manager 15#4 fun t =>
          t = { s with tmp := { s.tmp with battRec := s.tmp.battRec &&& ~~~(value &&& 0x8000007F#32) } }))
      ∧ (∀ (inst : BitVec 8) (q : Nat), PageOpen s inst.toNat → inst ≠ 0#8 → q < 16 → a = 0x10000 + 0x1000 * q →
        exec (.registerWrite (.tenant inst) offset value 15#4 image) s
          = exec (.sqDoorbell inst (BitVec.ofNat 4 q) (value.setWidth 16)) s)
      ∧ (∀ inst : BitVec 8, s.present inst.toNat = false ∨ inst = 0#8 → writes (.tenant inst) enables fun t => t = s))
    ∧ (∀ offset : BitVec 26,
      let a := offset.toNat / 4 * 4
      let reads (p : Party) (P : State → Prop) : Prop := Runs (.registerRead p offset) s P
      let open_ : Prop := isDbgReg a = false ∨ s.debugEn.getLsbD 1 = true
      (∀ v, s.boot.ready = true → s.readActs false a = none → open_ → s.pfView a = some v →
        reads .manager fun t => t = { s with rdata := v.val &&& v.m })
      ∧ (∀ v, s.readActs true a = none → open_ → s.pfView a = some v →
        reads .supervisor fun t => t = { s with rdata := v.val &&& v.s })
      ∧ (s.boot.ready = true → s.readActs false a = none → s.pfView a = none →
        reads .manager fun t => t.rdata = 0#32 ∧ Signals { s with rdata := 0#32 } t)
      ∧ (s.boot.ready = true → ¬ open_ → reads .manager fun t => t.rdata = 0#32 ∧ Raised blkLcc 0 s t
        ∧ Signals { s with rdata := 0#32 } t)
      ∧ (s.boot.ready = false → earlyRead a = false → reads .manager fun t => t.rdata = 0#32 ∧ Signals { s with rdata := 0#32 } t)
      ∧ (s.boot.ready = true → a = 0x100008 → reads .manager fun t => t.rdata = BitVec.ofNat 32 s.g
        ∧ t.sch = { s.sch with gHigh := BitVec.ofNat 32 (s.g / 2 ^ 32) } ∧ t = { s with rdata := t.rdata, sch := t.sch })
      ∧ (∀ (inst : BitVec 8) v, PageOpen s inst.toNat → inst ≠ 0#8 → s.pageView inst.toNat a = some v →
        reads (.tenant inst) fun t => t = { s with rdata := v.val }))
    ∧ (∀ error : PcieError, s.boot.power = true → s.boot.perst = false → Runs (.pcieErrorReceived error) s fun t =>
      Raised blkHiu (pcieBit error) s t ∧ t.link = s.link.note error ∧ Signals { s with link := t.link } t)

/-! ## Reset and the rules that every command keeps -/

/-- What the reset state holds: no command, no call, no key, empty memories in canonical form, every instance ACTIVE and
every queue DISABLED, every engine idle, every fault source clear and enabled, the default routes and tamper settings, and
bring-up before its first phase (R184, R374, R384, R531, R577, R585, R593). -/
def Obligations.ResetState : Prop :=
  let r := State.reset
  r.Canonical ∧ r.pending = [] ∧ r.g = 0 ∧ (∀ k, r.call k = none) ∧ (∀ k, 256 ≤ k → (r.slot k).live = false)
  ∧ (∀ i, (r.inst i).st = .active ∧ ∀ q, (r.queue i q).st = .disabled)
  ∧ (∀ i, (r.eng i).mode = .idle ∧ (r.eng i).peal = none)
  ∧ (∀ b, (r.fault b).fstat = 0#32 ∧ ∀ n, n < sourceCount b → bit32 (r.fault b).fen n = true)
  ∧ (∀ g, r.route g = dfltRoute g) ∧ r.faultPin = false ∧ r.alarm = false ∧ r.boot.ready = false ∧ r.boot.cause = 1
  ∧ r.tmp.holdMs = 10 ∧ r.tmp.meshEn = false ∧ r.tmp.lock = false ∧ ∀ n, (r.ch n).st = .idle

/-- Every command completes: it answers a next state, and it leaves the queue of waiting commands alone. -/
def Obligations.EveryCommandCompletes : Prop := ∀ (c : Instr) (s : State), Runs c s fun t => t.pending = s.pending

/-- Every step keeps host memory, DRAM and the key table in canonical form. -/
def Obligations.MemoriesStayCanonical : Prop := ∀ (s t : State), s.Canonical → step s = .next t → t.Canonical

/-- Every step leaves every fuse that is set as it is: no bit of the copies, the serial number, the digests or DEBUG_KILL
clears, and no thermometer falls (R522). -/
def Obligations.FusesOnlySet : Prop := ∀ (s t : State), step s = .next t → s.otp.NoneCleared t.otp
end

