-- ==== Sys2Proof/Laws/Crypto.lean ====
section
/-!
SUPPORT. What sealing makes, opening gives back: AES-256-GCM, and the records of the key vault.
-/
namespace Sys2Proof.Machine

/-- The key schedule keeps words of four bytes and adds as many as asked. -/
theorem aesExpand_words (n i rc : Nat) (l : List (List Nat)) (h : ∀ w ∈ l, w.length = 4) (h8 : 8 ≤ l.length) :
    (∀ w ∈ aesExpand n i rc l, w.length = 4) ∧ (aesExpand n i rc l).length = l.length + n := by
  induction n generalizing i rc l with
  | zero => exact ⟨h, rfl⟩
  | succ n ih =>
    have h0 (k : Nat) (hk : k < 8) : (l.getD k []).length = 4 := by
      rw [List.getD_eq_getElem?_getD, List.getElem?_eq_getElem (by omega)]
      exact h _ (List.getElem_mem _)
    have hz (t : List Nat) (ht : t.length = 4) :
        ∀ w ∈ List.zipWith (· ^^^ ·) (l.getD 7 []) t :: l, w.length = 4 := by
      intro w hw
      rcases List.mem_cons.mp hw with rfl | hw
      · simp [ht, h0 7 (by omega), -List.getD_eq_getElem?_getD]
      · exact h w hw
    have := ih (i + 1) (if i % 8 = 0 then xtime rc else rc) _ (hz (if i % 8 = 0 then
      [((l.getD 0 []).map fun x => boxAt aesSbox x).getD 1 0 ^^^ rc, ((l.getD 0 []).map fun x => boxAt aesSbox x).getD 2 0,
        ((l.getD 0 []).map fun x => boxAt aesSbox x).getD 3 0, ((l.getD 0 []).map fun x => boxAt aesSbox x).getD 0 0]
      else if i % 8 = 4 then (l.getD 0 []).map fun x => boxAt aesSbox x else l.getD 0 []) (by
        split
        · rfl
        · split
          · rw [List.length_map, h0 0 (by omega)]
          · exact h0 0 (by omega))) (by simp; omega)
    refine ⟨this.1, this.2.trans ?_⟩
    simp
    omega

/-- The last round key of a 256-bit key has 16 bytes. -/
theorem aesKey_last (k : BitVec 256) : ((aesKey k).getD 14 []).length = 16 := by
  have hl : ∀ n v, (natLe n v).length = n := by
    intro n
    induction n with
    | zero => intro v; rfl
    | succ n ih => intro v; simp [natLe, ih]
  have h32 : (octets (natLe 32 k.toNat)).length = 32 := by simp [octets, hl]
  have hw := aesExpand_words 52 8 1
    ((List.range 8).map fun i => ((octets (natLe 32 k.toNat)).drop (4 * i)).take 4).reverse (by
      intro w hw
      simp only [List.mem_reverse, List.mem_map, List.mem_range] at hw
      obtain ⟨i, hi, rfl⟩ := hw
      simp [h32]
      omega) (by simp)
  unfold aesKey aesKeys
  generalize aesExpand 52 8 1 _ = w at hw ⊢
  have hlen : w.length = 60 := by simpa using hw.2
  obtain ⟨a, b, c, d, hd⟩ : ∃ a b c d, ((w.reverse).drop 56).take 4 = [a, b, c, d] := by
    match h : ((w.reverse).drop 56).take 4, (show (((w.reverse).drop 56).take 4).length = 4 by simp [hlen]) with
    | [a, b, c, d], _ => exact ⟨a, b, c, d, rfl⟩
  have hm : ∀ x ∈ [a, b, c, d], x.length = 4 := by
    intro x hx
    rw [← hd] at hx
    exact hw.1 x (by simpa using List.mem_of_mem_drop (List.mem_of_mem_take hx))
  simp only [List.mem_cons, List.not_mem_nil, or_false, forall_eq_or_imp, forall_eq] at hm
  simp [List.range_succ, List.getD_eq_getElem?_getD, hd, hm]

/-- A block under a 256-bit key has 16 bytes. -/
theorem aesBlock_length (k : BitVec 256) (b : Bytes) : (aesBlock (aesKey k) b).length = 16 := by
  unfold aesBlock unoctets addKey shiftRows
  rw [List.length_map, List.length_zipWith, aesKey_last]
  simp

/-- The sum of two strings is as long as the shorter one. -/
theorem xorBlocks_length (a b : Bytes) : (xorBlocks a b).length = min a.length b.length := by simp [xorBlocks]

/-- Adding a string twice gives the first one back. -/
theorem xorBlocks_cancel (a b : Bytes) (h : a.length ≤ b.length) : xorBlocks (xorBlocks a b) b = a := by
  induction a generalizing b with
  | nil => simp [xorBlocks]
  | cons x t ih =>
    cases b with
    | nil => simp at h
    | cons y u =>
      have := ih u (by simpa using h)
      simp only [xorBlocks, List.zipWith_cons_cons] at this ⊢
      rw [this, BitVec.xor_assoc, BitVec.xor_self, BitVec.xor_zero]

/-- The key stream of a string is at least as long. -/
theorem keyStream_length (k : BitVec 256) (iv : Bytes) (n m : Nat) :
    ((List.range m).flatMap fun i => aesBlock (aesKey k) (iv ++ natBe 4 (n + i))).length = 16 * m := by
  induction m with
  | zero => rfl
  | succ m ih =>
    rw [List.range_succ, List.flatMap_append, List.length_append, ih]
    simp [aesBlock_length]
    omega

/-- Counter mode keeps the length. -/
theorem gctr_length (k : BitVec 256) (iv : Bytes) (n : Nat) (b : Bytes) : (gctr (aesKey k) iv n b).length = b.length := by
  unfold gctr
  rw [xorBlocks_length, keyStream_length]
  omega

/-- Counter mode twice gives the string back. -/
theorem gctr_gctr (k : BitVec 256) (iv : Bytes) (n : Nat) (b : Bytes) :
    gctr (aesKey k) iv n (gctr (aesKey k) iv n b) = b := by
  rw [gctr, gctr_length, gctr, xorBlocks_cancel]
  rw [keyStream_length]
  omega

/-- A tag has 16 bytes. -/
theorem gcmTag_length (k : BitVec 256) (iv aad ct : Bytes) : (gcmTag (aesKey k) iv aad ct).length = 16 := by
  have hl : ∀ n v, (natLe n v).length = n := by
    intro n
    induction n with
    | zero => intro v; rfl
    | succ n ih => intro v; simp [natLe, ih]
  simp [gcmTag, xorBlocks_length, aesBlock_length, natBe, hl]

/-- Sealing adds the 16 bytes of a tag. -/
theorem gcmSeal_length (k : BitVec 256) (iv : BitVec 96) (aad pt : Bytes) : (gcmSeal k iv aad pt).length = pt.length + 16 := by
  unfold gcmSeal
  simp [gctr_length, gcmTag_length]

/-- What was sealed opens again (R391, R429). -/
theorem gcmOpen_gcmSeal (k : BitVec 256) (iv : BitVec 96) (aad pt : Bytes) :
    gcmOpen k iv aad (gcmSeal k iv aad pt) = some pt := by
  have hlen : (gcmSeal k iv aad pt).length - 16 = (gctr (aesKey k) (natLe 12 iv.toNat) 2 pt).length := by
    rw [gcmSeal_length, gctr_length]
    omega
  unfold gcmOpen
  simp only [hlen]
  rw [gcmSeal_length]
  unfold gcmSeal
  simp [gctr_gctr, gctr_length]

/-- A filled string has the length asked for. -/
theorem padTo_length (n : Nat) (b : Bytes) : (padTo n b).length = n := by simp [padTo]

/-- A string of the length asked for is not changed. -/
theorem padTo_self {n : Nat} {b : Bytes} (h : b.length = n) : padTo n b = b := by
  subst h
  simp [padTo]

/-- A field of the first part of a string. -/
theorem leAt_append (a b : Bytes) (o n : Nat) (h : o + n ≤ a.length) : leAt (a ++ b) o n = leAt a o n := by
  unfold leAt
  rw [List.drop_append_of_le_length (by omega), List.take_append_of_le_length (by simp; omega)]

/-- A record is its header, the sealed key and a tag (R429). -/
theorem sealRecord_length (root : BitVec 256) (hdr : Bytes) (iv : BitVec 96) (key : Bytes) :
    (sealRecord root hdr iv key).length = hdr.length + (key.length + 16) := by simp [sealRecord, padTo_length]

/-- A record of the key vault opens to the key it was sealed with, where its header gives the length and the IV (R429). -/
theorem openRecord_sealRecord (root : BitVec 256) (hdr : Bytes) (iv : BitVec 96) (key : Bytes) (h64 : hdr.length = 64)
    (hk : leAt hdr 32 4 = key.length) (hiv : BitVec.ofNat 96 (leAt hdr 52 12) = iv) :
    openRecord root (sealRecord root hdr iv key) = some key := by
  have ht : ∀ x : Bytes, (hdr ++ x).take 64 = hdr := fun x => by
    rw [List.take_append_of_le_length (by omega), List.take_of_length_le (by omega)]
  have hd : ∀ x : Bytes, (hdr ++ x).drop 64 = x := fun x => by
    rw [← h64, List.drop_left]
  have hl : ∀ x o n, o + n ≤ 64 → leAt (hdr ++ x) o n = leAt hdr o n := fun x o n h => leAt_append hdr x o n (by omega)
  unfold openRecord sealRecord
  simp only [padTo_self (gcmSeal_length ..), hl _ 52 12 (by omega), hl _ 32 4 (by omega), hiv, hk, ht, hd,
    gcmOpen_gcmSeal, Option.map_some, padTo_self rfl]

/-- A mask taken off gives the bytes back. -/
theorem xor32_cancel (a b : Bytes) (h : a.length = 32) : xor32 (xor32 a b) b = a := by
  refine List.ext_getElem (by simp [xor32, h]) fun k hk _ => ?_
  have : k < 32 := by simpa [xor32] using hk
  have ha : k < a.length := by omega
  simp [xor32, this, List.getElem?_eq_getElem ha, BitVec.xor_assoc]

end Sys2Proof.Machine
end

