-- ==== Sys2Proof/Laws/Maps.lean ====
section
/-! SUPPORT. The laws of sparse stores: a read after a write, and the canonical form. -/
namespace Sys2Proof.Machine

variable {α : Type}

/-- A key that is deleted reads as its default. -/
theorem mget_mdel_same (d : Nat → α) (m : Map α) (i : Nat) : mget d (mdel m i) i = d i := by
  induction m with
  | nil => rfl
  | cons e t ih =>
    simp only [mdel, List.filter_cons] at ih ⊢
    by_cases h : e.1 = i
    · simp [h, ih]
    · simp [h, mget, ih]

/-- Deleting a key changes no other. -/
theorem mget_mdel_ne (d : Nat → α) (m : Map α) {i j : Nat} (h : i ≠ j) : mget d (mdel m i) j = mget d m j := by
  induction m with
  | nil => rfl
  | cons e t ih =>
    simp only [mdel, List.filter_cons] at ih ⊢
    by_cases hi : e.1 = i
    · have : e.1 ≠ j := fun x => h (hi ▸ x)
      simp [hi, mget, ih, h]
    · have hi' : (e.1 != i) = true := by simpa using hi
      rw [if_pos hi']
      simp only [mget, ih]

/-- The inserted key reads as the inserted value where no entry of it was there. -/
theorem mget_minsert_same (d : Nat → α) (m : Map α) (i : Nat) (x : α) (h : ∀ e ∈ m, e.1 ≠ i) :
    mget d (minsert i x m) i = x := by
  induction m with
  | nil => simp [minsert, mget]
  | cons e t ih =>
    have h1 : e.1 ≠ i := h e (by simp)
    have h2 := ih fun y hy => h y (by simp [hy])
    simp only [minsert]
    split <;> simp [mget, h1, h2]

/-- An insertion changes no other key. -/
theorem mget_minsert_ne (d : Nat → α) (m : Map α) {i j : Nat} (x : α) (h : i ≠ j) :
    mget d (minsert i x m) j = mget d m j := by
  induction m with
  | nil => simp [minsert, mget, h]
  | cons e t ih =>
    simp only [minsert]
    split <;> simp [mget, h, ih]

/-- A read after a write. -/
theorem mget_mset [DecidableEq α] (d : Nat → α) (m : Map α) (i j : Nat) (x : α) :
    mget d (mset d m i x) j = if i = j then x else mget d m j := by
  unfold mset
  by_cases hx : x = d i
  · by_cases h : i = j
    · subst h; simp [hx, mget_mdel_same]
    · simp [hx, h, mget_mdel_ne d m h]
  · by_cases h : i = j
    · subst h
      simp only [hx, if_false, if_true]
      refine mget_minsert_same d _ i x fun e he => ?_
      simp only [mdel, List.mem_filter] at he
      simpa using he.2
    · simp [hx, h, mget_minsert_ne d _ x h, mget_mdel_ne d m h]

/-- The key just written reads as what was written. -/
@[simp] theorem mget_mset_same [DecidableEq α] (d : Nat → α) (m : Map α) (i : Nat) (x : α) :
    mget d (mset d m i x) i = x := by simp [mget_mset]

/-! ## The canonical form -/

/-- A store whose keys lie above `b` keeps the form with a smaller bound. -/
theorem mwfFrom_weaken [DecidableEq α] {d : Nat → α} {m : Map α} {b c : Nat} (hcb : c ≤ b)
    (h : mwfFrom d (some b) m = true) : mwfFrom d (some c) m = true := by
  cases m with
  | nil => rfl
  | cons e t =>
    simp only [mwfFrom, Bool.and_eq_true, decide_eq_true_eq] at h ⊢
    exact ⟨⟨by omega, h.1.2⟩, h.2⟩

/-- Without a bound the form holds too. -/
theorem mwfFrom_none [DecidableEq α] {d : Nat → α} {m : Map α} {b : Nat} (h : mwfFrom d (some b) m = true) :
    mwfFrom d none m = true := by
  cases m with
  | nil => rfl
  | cons e t =>
    simp only [mwfFrom, Bool.and_eq_true] at h ⊢
    exact ⟨⟨trivial, h.1.2⟩, h.2⟩

/-- A filter keeps the canonical form. -/
theorem mwfFrom_filter [DecidableEq α] {d : Nat → α} {m : Map α} (p : Nat × α → Bool) :
    ∀ {b : Option Nat}, mwfFrom d b m = true → mwfFrom d b (m.filter p) = true := by
  induction m with
  | nil => intro b h; exact h
  | cons e t ih =>
    intro b h
    simp only [mwfFrom, Bool.and_eq_true] at h
    simp only [List.filter_cons]
    split
    · simp only [mwfFrom, Bool.and_eq_true]
      exact ⟨h.1, ih h.2⟩
    · have h2 := ih h.2
      cases b with
      | none => exact mwfFrom_none h2
      | some c =>
        have : c < e.1 := by simpa using h.1.1
        exact mwfFrom_weaken (by omega) h2

/-- An insertion of a listed value at a new key keeps the canonical form. -/
theorem mwfFrom_minsert [DecidableEq α] {d : Nat → α} {m : Map α} {i : Nat} {x : α} (hx : ¬x = d i)
    (hn : ∀ e ∈ m, e.1 ≠ i) :
    ∀ {b : Option Nat}, (∀ c, b = some c → c < i) → mwfFrom d b m = true → mwfFrom d b (minsert i x m) = true := by
  induction m with
  | nil =>
    intro b hb _
    cases b with
    | none => simp [minsert, mwfFrom, hx]
    | some c => simp [minsert, mwfFrom, hx, hb c rfl]
  | cons e t ih =>
    intro b hb h
    simp only [mwfFrom, Bool.and_eq_true] at h
    have hne : e.1 ≠ i := hn e (by simp)
    simp only [minsert]
    split
    · rename_i hlt
      simp only [mwfFrom, Bool.and_eq_true]
      refine ⟨⟨?_, by simp [hx]⟩, ⟨by simpa using hlt, h.1.2⟩, h.2⟩
      cases b with
      | none => rfl
      | some c => simpa using hb c rfl
    · simp only [mwfFrom, Bool.and_eq_true]
      refine ⟨h.1, ih (fun y hy => hn y (by simp [hy])) ?_ h.2⟩
      intro c hc
      have : c = e.1 := by simpa using hc.symm
      omega

/-- A write keeps the canonical form. -/
theorem mwf_mset [DecidableEq α] {d : Nat → α} {m : Map α} (i : Nat) (x : α) (h : mwf d m = true) :
    mwf d (mset d m i x) = true := by
  unfold mset
  split
  · exact mwfFrom_filter _ h
  · rename_i hx
    refine mwfFrom_minsert hx (fun e he => ?_) (by simp) (mwfFrom_filter _ h)
    simp only [mdel, List.mem_filter] at he
    simpa using he.2

/-- Reading after a change of every listed entry that keeps what unlisted keys read as. -/
theorem mget_mmap [DecidableEq α] (d : Nat → α) (f : Nat → α → α) (hf : ∀ k, f k (d k) = d k) (m : Map α) (i : Nat) :
    mget d (mmap d f m) i = f i (mget d m i) := by
  induction m with
  | nil => simp [mmap, mget, hf]
  | cons e t ih =>
    obtain ⟨k, v⟩ := e
    rw [mmap, mget_mset, ih]
    by_cases h : k = i
    · subst h; simp [mget]
    · simp [mget, h]

/-- A change of every listed entry leaves the canonical form. -/
theorem mwf_mmap [DecidableEq α] (d : Nat → α) (f : Nat → α → α) (m : Map α) : mwf d (mmap d f m) = true := by
  induction m with
  | nil => rfl
  | cons e t ih => exact mwf_mset e.1 (f e.1 e.2) ih

/-- Reading after a range of keys is cleared. -/
theorem mget_mclear (d : Nat → α) (m : Map α) (lo n i : Nat) :
    mget d (mclear m lo n) i = if lo ≤ i ∧ i < lo + n then d i else mget d m i := by
  induction m with
  | nil => simp [mclear, mget]
  | cons e t ih =>
    obtain ⟨k, v⟩ := e
    by_cases hk : lo ≤ k ∧ k < lo + n
    · have : mclear ((k, v) :: t) lo n = mclear t lo n := by simp [mclear, hk]
      rw [this, ih]
      by_cases hi : lo ≤ i ∧ i < lo + n
      · simp [hi]
      · have : k ≠ i := by rintro rfl; exact hi hk
        simp [hi, mget, this]
    · have : mclear ((k, v) :: t) lo n = (k, v) :: mclear t lo n := by
        simp only [mclear, List.filter_cons]
        rw [if_pos]
        simp only [Bool.not_eq_true', Bool.and_eq_false_iff, decide_eq_false_iff_not]
        omega
      rw [this, mget, ih, mget]
      by_cases h : k = i
      · subst h; simp [hk]
      · simp [h]

/-- Reading after all but a range of keys is cleared. -/
theorem mget_mkeep (d : Nat → α) (m : Map α) (lo n i : Nat) :
    mget d (mkeep m lo n) i = if lo ≤ i ∧ i < lo + n then mget d m i else d i := by
  induction m with
  | nil => simp [mkeep, mget]
  | cons e t ih =>
    obtain ⟨k, v⟩ := e
    by_cases hk : lo ≤ k ∧ k < lo + n
    · have : mkeep ((k, v) :: t) lo n = (k, v) :: mkeep t lo n := by simp [mkeep, hk]
      rw [this, mget, ih, mget]
      by_cases h : k = i
      · subst h; simp [hk]
      · simp [h]
    · have : mkeep ((k, v) :: t) lo n = mkeep t lo n := by
        simp only [mkeep, List.filter_cons]
        rw [if_neg]
        simp only [Bool.and_eq_true, decide_eq_true_eq]
        omega
      rw [this, ih]
      by_cases h : k = i
      · subst h; simp [hk]
      · simp [mget, h]

/-! ## Byte memories -/

/-- A byte read after a byte write. -/
theorem rdByte_wrByte (m : Map Byte) (a b : Nat) (x : Byte) :
    rdByte (wrByte m a x) b = if a = b then x else rdByte m b := mget_mset _ m a b x

/-- A byte read after a string is written. -/
theorem rdByte_wrBytes (m : Map Byte) (a b : Nat) (x : Bytes) :
    rdByte (wrBytes m a x) b = if a ≤ b ∧ b < a + x.length then x.getD (b - a) 0#8 else rdByte m b := by
  induction x generalizing m a with
  | nil =>
    have : ¬(a ≤ b ∧ b < a + 0) := by omega
    simp only [wrBytes, List.length_nil]
    rw [if_neg this]
  | cons y t ih =>
    simp only [wrBytes, ih, rdByte_wrByte, List.length_cons]
    by_cases h : a = b
    · subst h
      rw [if_neg (by omega), if_pos rfl, if_pos (by omega)]
      simp
    · by_cases h2 : a + 1 ≤ b ∧ b < a + 1 + t.length
      · rw [if_pos h2, if_pos (by omega)]
        have : b - a = (b - (a + 1)) + 1 := by omega
        simp [this]
      · rw [if_neg h2, if_neg h, if_neg (by omega)]

/-- The canonical form of a byte memory survives a byte write. -/
theorem memory_wf_wrByte {m : Map Byte} (a : Nat) (x : Byte) (h : Memory.wf m = true) :
    Memory.wf (wrByte m a x) = true := mwf_mset a x h

/-- The canonical form of a byte memory survives every write. -/
theorem memory_wf_wrBytes {m : Map Byte} (a : Nat) (x : Bytes) (h : Memory.wf m = true) :
    Memory.wf (wrBytes m a x) = true := by
  induction x generalizing m a with
  | nil => exact h
  | cons y t ih => exact ih (a + 1) (memory_wf_wrByte a y h)

theorem withNat_eq {α : Type} (n : Nat) (f : Nat → α) : withNat n f = f n := by cases n <;> rfl

end Sys2Proof.Machine
end

