-- ==== Sys2Proof/Laws/State.lean ====
section
/-!
SUPPORT. The laws of the state: what each named update leaves, field by field, and what a part reads as after a part is
replaced.
-/
namespace Sys2Proof.Machine

variable (s : State)

/-! ## A part after a part is replaced -/

/-- `eng` after `setEng`. -/
theorem eng_setEng (i j : Nat) (x : Engine) : (s.setEng i x).eng j = if i = j then x else s.eng j :=
  mget_mset _ _ i j x

@[simp] theorem eng_setEng_same (i : Nat) (x : Engine) : (s.setEng i x).eng i = x := mget_mset_same _ _ i x

/-- `cl` after `setCl`. -/
theorem cl_setCl (i j : Nat) (x : Cluster) : (s.setCl i x).cl j = if i = j then x else s.cl j :=
  mget_mset _ _ i j x

@[simp] theorem cl_setCl_same (i : Nat) (x : Cluster) : (s.setCl i x).cl i = x := mget_mset_same _ _ i x

/-- `inst` after `setInst`. -/
theorem inst_setInst (i j : Nat) (x : Instance) : (s.setInst i x).inst j = if i = j then x else s.inst j :=
  mget_mset _ _ i j x

@[simp] theorem inst_setInst_same (i : Nat) (x : Instance) : (s.setInst i x).inst i = x := mget_mset_same _ _ i x

/-- `reg` after `setReg`. -/
theorem reg_setReg (i j : Nat) (x : W32) : (s.setReg i x).reg j = if i = j then x else s.reg j :=
  mget_mset _ _ i j x

@[simp] theorem reg_setReg_same (i : Nat) (x : W32) : (s.setReg i x).reg i = x := mget_mset_same _ _ i x

/-- `fault` after `setFault`. -/
theorem fault_setFault (i j : Nat) (x : FaultRegs) : (s.setFault i x).fault j = if i = j then x else s.fault j :=
  mget_mset _ _ i j x

@[simp] theorem fault_setFault_same (i : Nat) (x : FaultRegs) : (s.setFault i x).fault i = x := mget_mset_same _ _ i x

/-- `slot` after `setSlot`. -/
theorem slot_setSlot (i j : Nat) (x : KeySlot) : (s.setSlot i x).slot j = if i = j then x else s.slot j :=
  mget_mset _ _ i j x

@[simp] theorem slot_setSlot_same (i : Nat) (x : KeySlot) : (s.setSlot i x).slot i = x := mget_mset_same _ _ i x

/-- `mau` after `setMau`. -/
theorem mau_setMau (i j : Nat) (x : Mau) : (s.setMau i x).mau j = if i = j then x else s.mau j :=
  mget_mset _ _ i j x

@[simp] theorem mau_setMau_same (i : Nat) (x : Mau) : (s.setMau i x).mau i = x := mget_mset_same _ _ i x

/-- `call` after `setCall`. -/
theorem call_setCall (i j : Nat) (x : Option Call) : (s.setCall i x).call j = if i = j then x else s.call j :=
  mget_mset _ _ i j x

@[simp] theorem call_setCall_same (i : Nat) (x : Option Call) : (s.setCall i x).call i = x := mget_mset_same _ _ i x

/-- `ctx` after `setCtx`. -/
theorem ctx_setCtx (i j : Nat) (x : DgeCtx) : (s.setCtx i x).ctx j = if i = j then x else s.ctx j :=
  mget_mset _ _ i j x

@[simp] theorem ctx_setCtx_same (i : Nat) (x : DgeCtx) : (s.setCtx i x).ctx i = x := mget_mset_same _ _ i x

/-- `ch` after `setCh`. -/
theorem ch_setCh (i j : Nat) (x : DmaCh) : (s.setCh i x).ch j = if i = j then x else s.ch j :=
  mget_mset _ _ i j x

@[simp] theorem ch_setCh_same (i : Nat) (x : DmaCh) : (s.setCh i x).ch i = x := mget_mset_same _ _ i x

/-- `drbg` after `setDrbg`. -/
theorem drbg_setDrbg (i j : Nat) (x : Drbg) : (s.setDrbg i x).drbg j = if i = j then x else s.drbg j :=
  mget_mset _ _ i j x

@[simp] theorem drbg_setDrbg_same (i : Nat) (x : Drbg) : (s.setDrbg i x).drbg i = x := mget_mset_same _ _ i x

/-- `queue` after `setQueue`. -/
theorem queue_setQueue (i q j r : Nat) (x : Queue) :
    (s.setQueue i q x).queue j r = if i = j ∧ q = r then x else s.queue j r := by
  simp only [State.queue, State.setQueue, inst_setInst]
  by_cases h : i = j
  · subst h; simp [mget_mset]
  · simp [h]

@[simp] theorem queue_setQueue_same (i q : Nat) (x : Queue) : (s.setQueue i q x).queue i q = x := by
  simp [queue_setQueue]

/-- `msixOf` after `setMsix`. -/
@[simp] theorem msixOf_setMsix_same (i v : Nat) (e : MsixEntry) : (s.setMsix i v e).msixOf i v = e :=
  mget_mset_same _ _ _ e

/-! ## Fields after an update -/

@[simp] theorem setEng_pending (i : Nat) (e : Engine) : (s.setEng i e).pending = s.pending := rfl
@[simp] theorem setEng_freeCtr (i : Nat) (e : Engine) : (s.setEng i e).freeCtr = s.freeCtr := rfl
@[simp] theorem setEng_g (i : Nat) (e : Engine) : (s.setEng i e).g = s.g := rfl
@[simp] theorem setEng_regs (i : Nat) (e : Engine) : (s.setEng i e).regs = s.regs := rfl
@[simp] theorem setEng_faults (i : Nat) (e : Engine) : (s.setEng i e).faults = s.faults := rfl
@[simp] theorem setEng_evr (i : Nat) (e : Engine) : (s.setEng i e).evr = s.evr := rfl
@[simp] theorem setEng_faultPin (i : Nat) (e : Engine) : (s.setEng i e).faultPin = s.faultPin := rfl
@[simp] theorem setEng_msix (i : Nat) (e : Engine) : (s.setEng i e).msix = s.msix := rfl
@[simp] theorem setEng_hostMem (i : Nat) (e : Engine) : (s.setEng i e).hostMem = s.hostMem := rfl
@[simp] theorem setEng_instances (i : Nat) (e : Engine) : (s.setEng i e).instances = s.instances := rfl
@[simp] theorem setEng_link (i : Nat) (e : Engine) : (s.setEng i e).link = s.link := rfl
@[simp] theorem setEng_clusters (i : Nat) (e : Engine) : (s.setEng i e).clusters = s.clusters := rfl
@[simp] theorem setEng_sch (i : Nat) (e : Engine) : (s.setEng i e).sch = s.sch := rfl
@[simp] theorem setEng_maus (i : Nat) (e : Engine) : (s.setEng i e).maus = s.maus := rfl
@[simp] theorem setEng_keys (i : Nat) (e : Engine) : (s.setEng i e).keys = s.keys := rfl
@[simp] theorem setEng_bbram (i : Nat) (e : Engine) : (s.setEng i e).bbram = s.bbram := rfl
@[simp] theorem setEng_dram (i : Nat) (e : Engine) : (s.setEng i e).dram = s.dram := rfl
@[simp] theorem setEng_ent (i : Nat) (e : Engine) : (s.setEng i e).ent = s.ent := rfl
@[simp] theorem setEng_otp (i : Nat) (e : Engine) : (s.setEng i e).otp = s.otp := rfl
@[simp] theorem setEng_lc (i : Nat) (e : Engine) : (s.setEng i e).lc = s.lc := rfl
@[simp] theorem setEng_lcc (i : Nat) (e : Engine) : (s.setEng i e).lcc = s.lcc := rfl
@[simp] theorem setEng_boot (i : Nat) (e : Engine) : (s.setEng i e).boot = s.boot := rfl
@[simp] theorem setEng_tmp (i : Nat) (e : Engine) : (s.setEng i e).tmp = s.tmp := rfl
@[simp] theorem setEng_alarm (i : Nat) (e : Engine) : (s.setEng i e).alarm = s.alarm := rfl
@[simp] theorem setEng_gov (i : Nat) (e : Engine) : (s.setEng i e).gov = s.gov := rfl
@[simp] theorem setEng_dge (i : Nat) (e : Engine) : (s.setEng i e).dge = s.dge := rfl
@[simp] theorem setEng_dma (i : Nat) (e : Engine) : (s.setEng i e).dma = s.dma := rfl
@[simp] theorem setEng_sd (i : Nat) (e : Engine) : (s.setEng i e).sd = s.sd := rfl
@[simp] theorem setEng_nor (i : Nat) (e : Engine) : (s.setEng i e).nor = s.nor := rfl
@[simp] theorem setEng_mgt (i : Nat) (e : Engine) : (s.setEng i e).mgt = s.mgt := rfl
@[simp] theorem setEng_budgetStart (i : Nat) (e : Engine) : (s.setEng i e).budgetStart = s.budgetStart := rfl
@[simp] theorem setEng_rdata (i : Nat) (e : Engine) : (s.setEng i e).rdata = s.rdata := rfl

@[simp] theorem setCl_pending (i : Nat) (k : Cluster) : (s.setCl i k).pending = s.pending := rfl
@[simp] theorem setCl_freeCtr (i : Nat) (k : Cluster) : (s.setCl i k).freeCtr = s.freeCtr := rfl
@[simp] theorem setCl_g (i : Nat) (k : Cluster) : (s.setCl i k).g = s.g := rfl
@[simp] theorem setCl_regs (i : Nat) (k : Cluster) : (s.setCl i k).regs = s.regs := rfl
@[simp] theorem setCl_faults (i : Nat) (k : Cluster) : (s.setCl i k).faults = s.faults := rfl
@[simp] theorem setCl_evr (i : Nat) (k : Cluster) : (s.setCl i k).evr = s.evr := rfl
@[simp] theorem setCl_faultPin (i : Nat) (k : Cluster) : (s.setCl i k).faultPin = s.faultPin := rfl
@[simp] theorem setCl_msix (i : Nat) (k : Cluster) : (s.setCl i k).msix = s.msix := rfl
@[simp] theorem setCl_hostMem (i : Nat) (k : Cluster) : (s.setCl i k).hostMem = s.hostMem := rfl
@[simp] theorem setCl_instances (i : Nat) (k : Cluster) : (s.setCl i k).instances = s.instances := rfl
@[simp] theorem setCl_link (i : Nat) (k : Cluster) : (s.setCl i k).link = s.link := rfl
@[simp] theorem setCl_engines (i : Nat) (k : Cluster) : (s.setCl i k).engines = s.engines := rfl
@[simp] theorem setCl_sch (i : Nat) (k : Cluster) : (s.setCl i k).sch = s.sch := rfl
@[simp] theorem setCl_maus (i : Nat) (k : Cluster) : (s.setCl i k).maus = s.maus := rfl
@[simp] theorem setCl_keys (i : Nat) (k : Cluster) : (s.setCl i k).keys = s.keys := rfl
@[simp] theorem setCl_bbram (i : Nat) (k : Cluster) : (s.setCl i k).bbram = s.bbram := rfl
@[simp] theorem setCl_dram (i : Nat) (k : Cluster) : (s.setCl i k).dram = s.dram := rfl
@[simp] theorem setCl_ent (i : Nat) (k : Cluster) : (s.setCl i k).ent = s.ent := rfl
@[simp] theorem setCl_otp (i : Nat) (k : Cluster) : (s.setCl i k).otp = s.otp := rfl
@[simp] theorem setCl_lc (i : Nat) (k : Cluster) : (s.setCl i k).lc = s.lc := rfl
@[simp] theorem setCl_lcc (i : Nat) (k : Cluster) : (s.setCl i k).lcc = s.lcc := rfl
@[simp] theorem setCl_boot (i : Nat) (k : Cluster) : (s.setCl i k).boot = s.boot := rfl
@[simp] theorem setCl_tmp (i : Nat) (k : Cluster) : (s.setCl i k).tmp = s.tmp := rfl
@[simp] theorem setCl_alarm (i : Nat) (k : Cluster) : (s.setCl i k).alarm = s.alarm := rfl
@[simp] theorem setCl_gov (i : Nat) (k : Cluster) : (s.setCl i k).gov = s.gov := rfl
@[simp] theorem setCl_dge (i : Nat) (k : Cluster) : (s.setCl i k).dge = s.dge := rfl
@[simp] theorem setCl_dma (i : Nat) (k : Cluster) : (s.setCl i k).dma = s.dma := rfl
@[simp] theorem setCl_sd (i : Nat) (k : Cluster) : (s.setCl i k).sd = s.sd := rfl
@[simp] theorem setCl_nor (i : Nat) (k : Cluster) : (s.setCl i k).nor = s.nor := rfl
@[simp] theorem setCl_mgt (i : Nat) (k : Cluster) : (s.setCl i k).mgt = s.mgt := rfl
@[simp] theorem setCl_budgetStart (i : Nat) (k : Cluster) : (s.setCl i k).budgetStart = s.budgetStart := rfl
@[simp] theorem setCl_rdata (i : Nat) (k : Cluster) : (s.setCl i k).rdata = s.rdata := rfl

@[simp] theorem setInst_pending (i : Nat) (x : Instance) : (s.setInst i x).pending = s.pending := rfl
@[simp] theorem setInst_freeCtr (i : Nat) (x : Instance) : (s.setInst i x).freeCtr = s.freeCtr := rfl
@[simp] theorem setInst_g (i : Nat) (x : Instance) : (s.setInst i x).g = s.g := rfl
@[simp] theorem setInst_regs (i : Nat) (x : Instance) : (s.setInst i x).regs = s.regs := rfl
@[simp] theorem setInst_faults (i : Nat) (x : Instance) : (s.setInst i x).faults = s.faults := rfl
@[simp] theorem setInst_evr (i : Nat) (x : Instance) : (s.setInst i x).evr = s.evr := rfl
@[simp] theorem setInst_faultPin (i : Nat) (x : Instance) : (s.setInst i x).faultPin = s.faultPin := rfl
@[simp] theorem setInst_msix (i : Nat) (x : Instance) : (s.setInst i x).msix = s.msix := rfl
@[simp] theorem setInst_hostMem (i : Nat) (x : Instance) : (s.setInst i x).hostMem = s.hostMem := rfl
@[simp] theorem setInst_link (i : Nat) (x : Instance) : (s.setInst i x).link = s.link := rfl
@[simp] theorem setInst_engines (i : Nat) (x : Instance) : (s.setInst i x).engines = s.engines := rfl
@[simp] theorem setInst_clusters (i : Nat) (x : Instance) : (s.setInst i x).clusters = s.clusters := rfl
@[simp] theorem setInst_sch (i : Nat) (x : Instance) : (s.setInst i x).sch = s.sch := rfl
@[simp] theorem setInst_maus (i : Nat) (x : Instance) : (s.setInst i x).maus = s.maus := rfl
@[simp] theorem setInst_keys (i : Nat) (x : Instance) : (s.setInst i x).keys = s.keys := rfl
@[simp] theorem setInst_bbram (i : Nat) (x : Instance) : (s.setInst i x).bbram = s.bbram := rfl
@[simp] theorem setInst_dram (i : Nat) (x : Instance) : (s.setInst i x).dram = s.dram := rfl
@[simp] theorem setInst_ent (i : Nat) (x : Instance) : (s.setInst i x).ent = s.ent := rfl
@[simp] theorem setInst_otp (i : Nat) (x : Instance) : (s.setInst i x).otp = s.otp := rfl
@[simp] theorem setInst_lc (i : Nat) (x : Instance) : (s.setInst i x).lc = s.lc := rfl
@[simp] theorem setInst_lcc (i : Nat) (x : Instance) : (s.setInst i x).lcc = s.lcc := rfl
@[simp] theorem setInst_boot (i : Nat) (x : Instance) : (s.setInst i x).boot = s.boot := rfl
@[simp] theorem setInst_tmp (i : Nat) (x : Instance) : (s.setInst i x).tmp = s.tmp := rfl
@[simp] theorem setInst_alarm (i : Nat) (x : Instance) : (s.setInst i x).alarm = s.alarm := rfl
@[simp] theorem setInst_gov (i : Nat) (x : Instance) : (s.setInst i x).gov = s.gov := rfl
@[simp] theorem setInst_dge (i : Nat) (x : Instance) : (s.setInst i x).dge = s.dge := rfl
@[simp] theorem setInst_dma (i : Nat) (x : Instance) : (s.setInst i x).dma = s.dma := rfl
@[simp] theorem setInst_sd (i : Nat) (x : Instance) : (s.setInst i x).sd = s.sd := rfl
@[simp] theorem setInst_nor (i : Nat) (x : Instance) : (s.setInst i x).nor = s.nor := rfl
@[simp] theorem setInst_mgt (i : Nat) (x : Instance) : (s.setInst i x).mgt = s.mgt := rfl
@[simp] theorem setInst_budgetStart (i : Nat) (x : Instance) : (s.setInst i x).budgetStart = s.budgetStart := rfl
@[simp] theorem setInst_rdata (i : Nat) (x : Instance) : (s.setInst i x).rdata = s.rdata := rfl

@[simp] theorem setQueue_pending (i q : Nat) (x : Queue) : (s.setQueue i q x).pending = s.pending := rfl
@[simp] theorem setQueue_freeCtr (i q : Nat) (x : Queue) : (s.setQueue i q x).freeCtr = s.freeCtr := rfl
@[simp] theorem setQueue_g (i q : Nat) (x : Queue) : (s.setQueue i q x).g = s.g := rfl
@[simp] theorem setQueue_regs (i q : Nat) (x : Queue) : (s.setQueue i q x).regs = s.regs := rfl
@[simp] theorem setQueue_faults (i q : Nat) (x : Queue) : (s.setQueue i q x).faults = s.faults := rfl
@[simp] theorem setQueue_evr (i q : Nat) (x : Queue) : (s.setQueue i q x).evr = s.evr := rfl
@[simp] theorem setQueue_faultPin (i q : Nat) (x : Queue) : (s.setQueue i q x).faultPin = s.faultPin := rfl
@[simp] theorem setQueue_msix (i q : Nat) (x : Queue) : (s.setQueue i q x).msix = s.msix := rfl
@[simp] theorem setQueue_hostMem (i q : Nat) (x : Queue) : (s.setQueue i q x).hostMem = s.hostMem := rfl
@[simp] theorem setQueue_link (i q : Nat) (x : Queue) : (s.setQueue i q x).link = s.link := rfl
@[simp] theorem setQueue_engines (i q : Nat) (x : Queue) : (s.setQueue i q x).engines = s.engines := rfl
@[simp] theorem setQueue_clusters (i q : Nat) (x : Queue) : (s.setQueue i q x).clusters = s.clusters := rfl
@[simp] theorem setQueue_sch (i q : Nat) (x : Queue) : (s.setQueue i q x).sch = s.sch := rfl
@[simp] theorem setQueue_maus (i q : Nat) (x : Queue) : (s.setQueue i q x).maus = s.maus := rfl
@[simp] theorem setQueue_keys (i q : Nat) (x : Queue) : (s.setQueue i q x).keys = s.keys := rfl
@[simp] theorem setQueue_bbram (i q : Nat) (x : Queue) : (s.setQueue i q x).bbram = s.bbram := rfl
@[simp] theorem setQueue_dram (i q : Nat) (x : Queue) : (s.setQueue i q x).dram = s.dram := rfl
@[simp] theorem setQueue_ent (i q : Nat) (x : Queue) : (s.setQueue i q x).ent = s.ent := rfl
@[simp] theorem setQueue_otp (i q : Nat) (x : Queue) : (s.setQueue i q x).otp = s.otp := rfl
@[simp] theorem setQueue_lc (i q : Nat) (x : Queue) : (s.setQueue i q x).lc = s.lc := rfl
@[simp] theorem setQueue_lcc (i q : Nat) (x : Queue) : (s.setQueue i q x).lcc = s.lcc := rfl
@[simp] theorem setQueue_boot (i q : Nat) (x : Queue) : (s.setQueue i q x).boot = s.boot := rfl
@[simp] theorem setQueue_tmp (i q : Nat) (x : Queue) : (s.setQueue i q x).tmp = s.tmp := rfl
@[simp] theorem setQueue_alarm (i q : Nat) (x : Queue) : (s.setQueue i q x).alarm = s.alarm := rfl
@[simp] theorem setQueue_gov (i q : Nat) (x : Queue) : (s.setQueue i q x).gov = s.gov := rfl
@[simp] theorem setQueue_dge (i q : Nat) (x : Queue) : (s.setQueue i q x).dge = s.dge := rfl
@[simp] theorem setQueue_dma (i q : Nat) (x : Queue) : (s.setQueue i q x).dma = s.dma := rfl
@[simp] theorem setQueue_sd (i q : Nat) (x : Queue) : (s.setQueue i q x).sd = s.sd := rfl
@[simp] theorem setQueue_nor (i q : Nat) (x : Queue) : (s.setQueue i q x).nor = s.nor := rfl
@[simp] theorem setQueue_mgt (i q : Nat) (x : Queue) : (s.setQueue i q x).mgt = s.mgt := rfl
@[simp] theorem setQueue_budgetStart (i q : Nat) (x : Queue) : (s.setQueue i q x).budgetStart = s.budgetStart := rfl
@[simp] theorem setQueue_rdata (i q : Nat) (x : Queue) : (s.setQueue i q x).rdata = s.rdata := rfl

@[simp] theorem setReg_pending (a : Nat) (v : W32) : (s.setReg a v).pending = s.pending := rfl
@[simp] theorem setReg_freeCtr (a : Nat) (v : W32) : (s.setReg a v).freeCtr = s.freeCtr := rfl
@[simp] theorem setReg_g (a : Nat) (v : W32) : (s.setReg a v).g = s.g := rfl
@[simp] theorem setReg_faults (a : Nat) (v : W32) : (s.setReg a v).faults = s.faults := rfl
@[simp] theorem setReg_evr (a : Nat) (v : W32) : (s.setReg a v).evr = s.evr := rfl
@[simp] theorem setReg_faultPin (a : Nat) (v : W32) : (s.setReg a v).faultPin = s.faultPin := rfl
@[simp] theorem setReg_msix (a : Nat) (v : W32) : (s.setReg a v).msix = s.msix := rfl
@[simp] theorem setReg_hostMem (a : Nat) (v : W32) : (s.setReg a v).hostMem = s.hostMem := rfl
@[simp] theorem setReg_instances (a : Nat) (v : W32) : (s.setReg a v).instances = s.instances := rfl
@[simp] theorem setReg_link (a : Nat) (v : W32) : (s.setReg a v).link = s.link := rfl
@[simp] theorem setReg_engines (a : Nat) (v : W32) : (s.setReg a v).engines = s.engines := rfl
@[simp] theorem setReg_clusters (a : Nat) (v : W32) : (s.setReg a v).clusters = s.clusters := rfl
@[simp] theorem setReg_sch (a : Nat) (v : W32) : (s.setReg a v).sch = s.sch := rfl
@[simp] theorem setReg_maus (a : Nat) (v : W32) : (s.setReg a v).maus = s.maus := rfl
@[simp] theorem setReg_keys (a : Nat) (v : W32) : (s.setReg a v).keys = s.keys := rfl
@[simp] theorem setReg_bbram (a : Nat) (v : W32) : (s.setReg a v).bbram = s.bbram := rfl
@[simp] theorem setReg_dram (a : Nat) (v : W32) : (s.setReg a v).dram = s.dram := rfl
@[simp] theorem setReg_ent (a : Nat) (v : W32) : (s.setReg a v).ent = s.ent := rfl
@[simp] theorem setReg_otp (a : Nat) (v : W32) : (s.setReg a v).otp = s.otp := rfl
@[simp] theorem setReg_lc (a : Nat) (v : W32) : (s.setReg a v).lc = s.lc := rfl
@[simp] theorem setReg_lcc (a : Nat) (v : W32) : (s.setReg a v).lcc = s.lcc := rfl
@[simp] theorem setReg_boot (a : Nat) (v : W32) : (s.setReg a v).boot = s.boot := rfl
@[simp] theorem setReg_tmp (a : Nat) (v : W32) : (s.setReg a v).tmp = s.tmp := rfl
@[simp] theorem setReg_alarm (a : Nat) (v : W32) : (s.setReg a v).alarm = s.alarm := rfl
@[simp] theorem setReg_gov (a : Nat) (v : W32) : (s.setReg a v).gov = s.gov := rfl
@[simp] theorem setReg_dge (a : Nat) (v : W32) : (s.setReg a v).dge = s.dge := rfl
@[simp] theorem setReg_dma (a : Nat) (v : W32) : (s.setReg a v).dma = s.dma := rfl
@[simp] theorem setReg_sd (a : Nat) (v : W32) : (s.setReg a v).sd = s.sd := rfl
@[simp] theorem setReg_nor (a : Nat) (v : W32) : (s.setReg a v).nor = s.nor := rfl
@[simp] theorem setReg_mgt (a : Nat) (v : W32) : (s.setReg a v).mgt = s.mgt := rfl
@[simp] theorem setReg_budgetStart (a : Nat) (v : W32) : (s.setReg a v).budgetStart = s.budgetStart := rfl
@[simp] theorem setReg_rdata (a : Nat) (v : W32) : (s.setReg a v).rdata = s.rdata := rfl

@[simp] theorem setMsix_pending (i v : Nat) (e : MsixEntry) : (s.setMsix i v e).pending = s.pending := rfl
@[simp] theorem setMsix_freeCtr (i v : Nat) (e : MsixEntry) : (s.setMsix i v e).freeCtr = s.freeCtr := rfl
@[simp] theorem setMsix_g (i v : Nat) (e : MsixEntry) : (s.setMsix i v e).g = s.g := rfl
@[simp] theorem setMsix_regs (i v : Nat) (e : MsixEntry) : (s.setMsix i v e).regs = s.regs := rfl
@[simp] theorem setMsix_faults (i v : Nat) (e : MsixEntry) : (s.setMsix i v e).faults = s.faults := rfl
@[simp] theorem setMsix_evr (i v : Nat) (e : MsixEntry) : (s.setMsix i v e).evr = s.evr := rfl
@[simp] theorem setMsix_faultPin (i v : Nat) (e : MsixEntry) : (s.setMsix i v e).faultPin = s.faultPin := rfl
@[simp] theorem setMsix_hostMem (i v : Nat) (e : MsixEntry) : (s.setMsix i v e).hostMem = s.hostMem := rfl
@[simp] theorem setMsix_instances (i v : Nat) (e : MsixEntry) : (s.setMsix i v e).instances = s.instances := rfl
@[simp] theorem setMsix_link (i v : Nat) (e : MsixEntry) : (s.setMsix i v e).link = s.link := rfl
@[simp] theorem setMsix_engines (i v : Nat) (e : MsixEntry) : (s.setMsix i v e).engines = s.engines := rfl
@[simp] theorem setMsix_clusters (i v : Nat) (e : MsixEntry) : (s.setMsix i v e).clusters = s.clusters := rfl
@[simp] theorem setMsix_sch (i v : Nat) (e : MsixEntry) : (s.setMsix i v e).sch = s.sch := rfl
@[simp] theorem setMsix_maus (i v : Nat) (e : MsixEntry) : (s.setMsix i v e).maus = s.maus := rfl
@[simp] theorem setMsix_keys (i v : Nat) (e : MsixEntry) : (s.setMsix i v e).keys = s.keys := rfl
@[simp] theorem setMsix_bbram (i v : Nat) (e : MsixEntry) : (s.setMsix i v e).bbram = s.bbram := rfl
@[simp] theorem setMsix_dram (i v : Nat) (e : MsixEntry) : (s.setMsix i v e).dram = s.dram := rfl
@[simp] theorem setMsix_ent (i v : Nat) (e : MsixEntry) : (s.setMsix i v e).ent = s.ent := rfl
@[simp] theorem setMsix_otp (i v : Nat) (e : MsixEntry) : (s.setMsix i v e).otp = s.otp := rfl
@[simp] theorem setMsix_lc (i v : Nat) (e : MsixEntry) : (s.setMsix i v e).lc = s.lc := rfl
@[simp] theorem setMsix_lcc (i v : Nat) (e : MsixEntry) : (s.setMsix i v e).lcc = s.lcc := rfl
@[simp] theorem setMsix_boot (i v : Nat) (e : MsixEntry) : (s.setMsix i v e).boot = s.boot := rfl
@[simp] theorem setMsix_tmp (i v : Nat) (e : MsixEntry) : (s.setMsix i v e).tmp = s.tmp := rfl
@[simp] theorem setMsix_alarm (i v : Nat) (e : MsixEntry) : (s.setMsix i v e).alarm = s.alarm := rfl
@[simp] theorem setMsix_gov (i v : Nat) (e : MsixEntry) : (s.setMsix i v e).gov = s.gov := rfl
@[simp] theorem setMsix_dge (i v : Nat) (e : MsixEntry) : (s.setMsix i v e).dge = s.dge := rfl
@[simp] theorem setMsix_dma (i v : Nat) (e : MsixEntry) : (s.setMsix i v e).dma = s.dma := rfl
@[simp] theorem setMsix_sd (i v : Nat) (e : MsixEntry) : (s.setMsix i v e).sd = s.sd := rfl
@[simp] theorem setMsix_nor (i v : Nat) (e : MsixEntry) : (s.setMsix i v e).nor = s.nor := rfl
@[simp] theorem setMsix_mgt (i v : Nat) (e : MsixEntry) : (s.setMsix i v e).mgt = s.mgt := rfl
@[simp] theorem setMsix_budgetStart (i v : Nat) (e : MsixEntry) : (s.setMsix i v e).budgetStart = s.budgetStart := rfl
@[simp] theorem setMsix_rdata (i v : Nat) (e : MsixEntry) : (s.setMsix i v e).rdata = s.rdata := rfl

@[simp] theorem hostWrite_pending (a : Nat) (b : Bytes) : (s.hostWrite a b).pending = s.pending := rfl
@[simp] theorem hostWrite_freeCtr (a : Nat) (b : Bytes) : (s.hostWrite a b).freeCtr = s.freeCtr := rfl
@[simp] theorem hostWrite_g (a : Nat) (b : Bytes) : (s.hostWrite a b).g = s.g := rfl
@[simp] theorem hostWrite_regs (a : Nat) (b : Bytes) : (s.hostWrite a b).regs = s.regs := rfl
@[simp] theorem hostWrite_faults (a : Nat) (b : Bytes) : (s.hostWrite a b).faults = s.faults := rfl
@[simp] theorem hostWrite_evr (a : Nat) (b : Bytes) : (s.hostWrite a b).evr = s.evr := rfl
@[simp] theorem hostWrite_faultPin (a : Nat) (b : Bytes) : (s.hostWrite a b).faultPin = s.faultPin := rfl
@[simp] theorem hostWrite_msix (a : Nat) (b : Bytes) : (s.hostWrite a b).msix = s.msix := rfl
@[simp] theorem hostWrite_instances (a : Nat) (b : Bytes) : (s.hostWrite a b).instances = s.instances := rfl
@[simp] theorem hostWrite_link (a : Nat) (b : Bytes) : (s.hostWrite a b).link = s.link := rfl
@[simp] theorem hostWrite_engines (a : Nat) (b : Bytes) : (s.hostWrite a b).engines = s.engines := rfl
@[simp] theorem hostWrite_clusters (a : Nat) (b : Bytes) : (s.hostWrite a b).clusters = s.clusters := rfl
@[simp] theorem hostWrite_sch (a : Nat) (b : Bytes) : (s.hostWrite a b).sch = s.sch := rfl
@[simp] theorem hostWrite_maus (a : Nat) (b : Bytes) : (s.hostWrite a b).maus = s.maus := rfl
@[simp] theorem hostWrite_keys (a : Nat) (b : Bytes) : (s.hostWrite a b).keys = s.keys := rfl
@[simp] theorem hostWrite_bbram (a : Nat) (b : Bytes) : (s.hostWrite a b).bbram = s.bbram := rfl
@[simp] theorem hostWrite_dram (a : Nat) (b : Bytes) : (s.hostWrite a b).dram = s.dram := rfl
@[simp] theorem hostWrite_ent (a : Nat) (b : Bytes) : (s.hostWrite a b).ent = s.ent := rfl
@[simp] theorem hostWrite_otp (a : Nat) (b : Bytes) : (s.hostWrite a b).otp = s.otp := rfl
@[simp] theorem hostWrite_lc (a : Nat) (b : Bytes) : (s.hostWrite a b).lc = s.lc := rfl
@[simp] theorem hostWrite_lcc (a : Nat) (b : Bytes) : (s.hostWrite a b).lcc = s.lcc := rfl
@[simp] theorem hostWrite_boot (a : Nat) (b : Bytes) : (s.hostWrite a b).boot = s.boot := rfl
@[simp] theorem hostWrite_tmp (a : Nat) (b : Bytes) : (s.hostWrite a b).tmp = s.tmp := rfl
@[simp] theorem hostWrite_alarm (a : Nat) (b : Bytes) : (s.hostWrite a b).alarm = s.alarm := rfl
@[simp] theorem hostWrite_gov (a : Nat) (b : Bytes) : (s.hostWrite a b).gov = s.gov := rfl
@[simp] theorem hostWrite_dge (a : Nat) (b : Bytes) : (s.hostWrite a b).dge = s.dge := rfl
@[simp] theorem hostWrite_dma (a : Nat) (b : Bytes) : (s.hostWrite a b).dma = s.dma := rfl
@[simp] theorem hostWrite_sd (a : Nat) (b : Bytes) : (s.hostWrite a b).sd = s.sd := rfl
@[simp] theorem hostWrite_nor (a : Nat) (b : Bytes) : (s.hostWrite a b).nor = s.nor := rfl
@[simp] theorem hostWrite_mgt (a : Nat) (b : Bytes) : (s.hostWrite a b).mgt = s.mgt := rfl
@[simp] theorem hostWrite_budgetStart (a : Nat) (b : Bytes) : (s.hostWrite a b).budgetStart = s.budgetStart := rfl
@[simp] theorem hostWrite_rdata (a : Nat) (b : Bytes) : (s.hostWrite a b).rdata = s.rdata := rfl

@[simp] theorem setFault_pending (i : Nat) (f : FaultRegs) : (s.setFault i f).pending = s.pending := rfl
@[simp] theorem setFault_freeCtr (i : Nat) (f : FaultRegs) : (s.setFault i f).freeCtr = s.freeCtr := rfl
@[simp] theorem setFault_g (i : Nat) (f : FaultRegs) : (s.setFault i f).g = s.g := rfl
@[simp] theorem setFault_regs (i : Nat) (f : FaultRegs) : (s.setFault i f).regs = s.regs := rfl
@[simp] theorem setFault_evr (i : Nat) (f : FaultRegs) : (s.setFault i f).evr = s.evr := rfl
@[simp] theorem setFault_faultPin (i : Nat) (f : FaultRegs) : (s.setFault i f).faultPin = s.faultPin := rfl
@[simp] theorem setFault_msix (i : Nat) (f : FaultRegs) : (s.setFault i f).msix = s.msix := rfl
@[simp] theorem setFault_hostMem (i : Nat) (f : FaultRegs) : (s.setFault i f).hostMem = s.hostMem := rfl
@[simp] theorem setFault_instances (i : Nat) (f : FaultRegs) : (s.setFault i f).instances = s.instances := rfl
@[simp] theorem setFault_link (i : Nat) (f : FaultRegs) : (s.setFault i f).link = s.link := rfl
@[simp] theorem setFault_engines (i : Nat) (f : FaultRegs) : (s.setFault i f).engines = s.engines := rfl
@[simp] theorem setFault_clusters (i : Nat) (f : FaultRegs) : (s.setFault i f).clusters = s.clusters := rfl
@[simp] theorem setFault_sch (i : Nat) (f : FaultRegs) : (s.setFault i f).sch = s.sch := rfl
@[simp] theorem setFault_maus (i : Nat) (f : FaultRegs) : (s.setFault i f).maus = s.maus := rfl
@[simp] theorem setFault_keys (i : Nat) (f : FaultRegs) : (s.setFault i f).keys = s.keys := rfl
@[simp] theorem setFault_bbram (i : Nat) (f : FaultRegs) : (s.setFault i f).bbram = s.bbram := rfl
@[simp] theorem setFault_dram (i : Nat) (f : FaultRegs) : (s.setFault i f).dram = s.dram := rfl
@[simp] theorem setFault_ent (i : Nat) (f : FaultRegs) : (s.setFault i f).ent = s.ent := rfl
@[simp] theorem setFault_otp (i : Nat) (f : FaultRegs) : (s.setFault i f).otp = s.otp := rfl
@[simp] theorem setFault_lc (i : Nat) (f : FaultRegs) : (s.setFault i f).lc = s.lc := rfl
@[simp] theorem setFault_lcc (i : Nat) (f : FaultRegs) : (s.setFault i f).lcc = s.lcc := rfl
@[simp] theorem setFault_boot (i : Nat) (f : FaultRegs) : (s.setFault i f).boot = s.boot := rfl
@[simp] theorem setFault_tmp (i : Nat) (f : FaultRegs) : (s.setFault i f).tmp = s.tmp := rfl
@[simp] theorem setFault_alarm (i : Nat) (f : FaultRegs) : (s.setFault i f).alarm = s.alarm := rfl
@[simp] theorem setFault_gov (i : Nat) (f : FaultRegs) : (s.setFault i f).gov = s.gov := rfl
@[simp] theorem setFault_dge (i : Nat) (f : FaultRegs) : (s.setFault i f).dge = s.dge := rfl
@[simp] theorem setFault_dma (i : Nat) (f : FaultRegs) : (s.setFault i f).dma = s.dma := rfl
@[simp] theorem setFault_sd (i : Nat) (f : FaultRegs) : (s.setFault i f).sd = s.sd := rfl
@[simp] theorem setFault_nor (i : Nat) (f : FaultRegs) : (s.setFault i f).nor = s.nor := rfl
@[simp] theorem setFault_mgt (i : Nat) (f : FaultRegs) : (s.setFault i f).mgt = s.mgt := rfl
@[simp] theorem setFault_budgetStart (i : Nat) (f : FaultRegs) : (s.setFault i f).budgetStart = s.budgetStart := rfl
@[simp] theorem setFault_rdata (i : Nat) (f : FaultRegs) : (s.setFault i f).rdata = s.rdata := rfl

@[simp] theorem note_pending (o : Occurrence) : (s.note o).pending = s.pending := rfl
@[simp] theorem note_freeCtr (o : Occurrence) : (s.note o).freeCtr = s.freeCtr := rfl
@[simp] theorem note_g (o : Occurrence) : (s.note o).g = s.g := rfl
@[simp] theorem note_regs (o : Occurrence) : (s.note o).regs = s.regs := rfl
@[simp] theorem note_faults (o : Occurrence) : (s.note o).faults = s.faults := rfl
@[simp] theorem note_faultPin (o : Occurrence) : (s.note o).faultPin = s.faultPin := rfl
@[simp] theorem note_msix (o : Occurrence) : (s.note o).msix = s.msix := rfl
@[simp] theorem note_hostMem (o : Occurrence) : (s.note o).hostMem = s.hostMem := rfl
@[simp] theorem note_instances (o : Occurrence) : (s.note o).instances = s.instances := rfl
@[simp] theorem note_link (o : Occurrence) : (s.note o).link = s.link := rfl
@[simp] theorem note_engines (o : Occurrence) : (s.note o).engines = s.engines := rfl
@[simp] theorem note_clusters (o : Occurrence) : (s.note o).clusters = s.clusters := rfl
@[simp] theorem note_sch (o : Occurrence) : (s.note o).sch = s.sch := rfl
@[simp] theorem note_maus (o : Occurrence) : (s.note o).maus = s.maus := rfl
@[simp] theorem note_keys (o : Occurrence) : (s.note o).keys = s.keys := rfl
@[simp] theorem note_bbram (o : Occurrence) : (s.note o).bbram = s.bbram := rfl
@[simp] theorem note_dram (o : Occurrence) : (s.note o).dram = s.dram := rfl
@[simp] theorem note_ent (o : Occurrence) : (s.note o).ent = s.ent := rfl
@[simp] theorem note_otp (o : Occurrence) : (s.note o).otp = s.otp := rfl
@[simp] theorem note_lc (o : Occurrence) : (s.note o).lc = s.lc := rfl
@[simp] theorem note_lcc (o : Occurrence) : (s.note o).lcc = s.lcc := rfl
@[simp] theorem note_boot (o : Occurrence) : (s.note o).boot = s.boot := rfl
@[simp] theorem note_tmp (o : Occurrence) : (s.note o).tmp = s.tmp := rfl
@[simp] theorem note_alarm (o : Occurrence) : (s.note o).alarm = s.alarm := rfl
@[simp] theorem note_gov (o : Occurrence) : (s.note o).gov = s.gov := rfl
@[simp] theorem note_dge (o : Occurrence) : (s.note o).dge = s.dge := rfl
@[simp] theorem note_dma (o : Occurrence) : (s.note o).dma = s.dma := rfl
@[simp] theorem note_sd (o : Occurrence) : (s.note o).sd = s.sd := rfl
@[simp] theorem note_nor (o : Occurrence) : (s.note o).nor = s.nor := rfl
@[simp] theorem note_mgt (o : Occurrence) : (s.note o).mgt = s.mgt := rfl
@[simp] theorem note_budgetStart (o : Occurrence) : (s.note o).budgetStart = s.budgetStart := rfl
@[simp] theorem note_rdata (o : Occurrence) : (s.note o).rdata = s.rdata := rfl

@[simp] theorem useFree_pending (n : Nat) : (s.useFree n).pending = s.pending := rfl
@[simp] theorem useFree_g (n : Nat) : (s.useFree n).g = s.g := rfl
@[simp] theorem useFree_regs (n : Nat) : (s.useFree n).regs = s.regs := rfl
@[simp] theorem useFree_faults (n : Nat) : (s.useFree n).faults = s.faults := rfl
@[simp] theorem useFree_evr (n : Nat) : (s.useFree n).evr = s.evr := rfl
@[simp] theorem useFree_faultPin (n : Nat) : (s.useFree n).faultPin = s.faultPin := rfl
@[simp] theorem useFree_msix (n : Nat) : (s.useFree n).msix = s.msix := rfl
@[simp] theorem useFree_hostMem (n : Nat) : (s.useFree n).hostMem = s.hostMem := rfl
@[simp] theorem useFree_instances (n : Nat) : (s.useFree n).instances = s.instances := rfl
@[simp] theorem useFree_link (n : Nat) : (s.useFree n).link = s.link := rfl
@[simp] theorem useFree_engines (n : Nat) : (s.useFree n).engines = s.engines := rfl
@[simp] theorem useFree_clusters (n : Nat) : (s.useFree n).clusters = s.clusters := rfl
@[simp] theorem useFree_sch (n : Nat) : (s.useFree n).sch = s.sch := rfl
@[simp] theorem useFree_maus (n : Nat) : (s.useFree n).maus = s.maus := rfl
@[simp] theorem useFree_keys (n : Nat) : (s.useFree n).keys = s.keys := rfl
@[simp] theorem useFree_bbram (n : Nat) : (s.useFree n).bbram = s.bbram := rfl
@[simp] theorem useFree_dram (n : Nat) : (s.useFree n).dram = s.dram := rfl
@[simp] theorem useFree_ent (n : Nat) : (s.useFree n).ent = s.ent := rfl
@[simp] theorem useFree_otp (n : Nat) : (s.useFree n).otp = s.otp := rfl
@[simp] theorem useFree_lc (n : Nat) : (s.useFree n).lc = s.lc := rfl
@[simp] theorem useFree_lcc (n : Nat) : (s.useFree n).lcc = s.lcc := rfl
@[simp] theorem useFree_boot (n : Nat) : (s.useFree n).boot = s.boot := rfl
@[simp] theorem useFree_tmp (n : Nat) : (s.useFree n).tmp = s.tmp := rfl
@[simp] theorem useFree_alarm (n : Nat) : (s.useFree n).alarm = s.alarm := rfl
@[simp] theorem useFree_gov (n : Nat) : (s.useFree n).gov = s.gov := rfl
@[simp] theorem useFree_dge (n : Nat) : (s.useFree n).dge = s.dge := rfl
@[simp] theorem useFree_dma (n : Nat) : (s.useFree n).dma = s.dma := rfl
@[simp] theorem useFree_sd (n : Nat) : (s.useFree n).sd = s.sd := rfl
@[simp] theorem useFree_nor (n : Nat) : (s.useFree n).nor = s.nor := rfl
@[simp] theorem useFree_mgt (n : Nat) : (s.useFree n).mgt = s.mgt := rfl
@[simp] theorem useFree_budgetStart (n : Nat) : (s.useFree n).budgetStart = s.budgetStart := rfl
@[simp] theorem useFree_rdata (n : Nat) : (s.useFree n).rdata = s.rdata := rfl

@[simp] theorem setSlot_pending (i : Nat) (k : KeySlot) : (s.setSlot i k).pending = s.pending := rfl
@[simp] theorem setSlot_freeCtr (i : Nat) (k : KeySlot) : (s.setSlot i k).freeCtr = s.freeCtr := rfl
@[simp] theorem setSlot_g (i : Nat) (k : KeySlot) : (s.setSlot i k).g = s.g := rfl
@[simp] theorem setSlot_regs (i : Nat) (k : KeySlot) : (s.setSlot i k).regs = s.regs := rfl
@[simp] theorem setSlot_faults (i : Nat) (k : KeySlot) : (s.setSlot i k).faults = s.faults := rfl
@[simp] theorem setSlot_evr (i : Nat) (k : KeySlot) : (s.setSlot i k).evr = s.evr := rfl
@[simp] theorem setSlot_faultPin (i : Nat) (k : KeySlot) : (s.setSlot i k).faultPin = s.faultPin := rfl
@[simp] theorem setSlot_msix (i : Nat) (k : KeySlot) : (s.setSlot i k).msix = s.msix := rfl
@[simp] theorem setSlot_hostMem (i : Nat) (k : KeySlot) : (s.setSlot i k).hostMem = s.hostMem := rfl
@[simp] theorem setSlot_instances (i : Nat) (k : KeySlot) : (s.setSlot i k).instances = s.instances := rfl
@[simp] theorem setSlot_link (i : Nat) (k : KeySlot) : (s.setSlot i k).link = s.link := rfl
@[simp] theorem setSlot_engines (i : Nat) (k : KeySlot) : (s.setSlot i k).engines = s.engines := rfl
@[simp] theorem setSlot_clusters (i : Nat) (k : KeySlot) : (s.setSlot i k).clusters = s.clusters := rfl
@[simp] theorem setSlot_sch (i : Nat) (k : KeySlot) : (s.setSlot i k).sch = s.sch := rfl
@[simp] theorem setSlot_maus (i : Nat) (k : KeySlot) : (s.setSlot i k).maus = s.maus := rfl
@[simp] theorem setSlot_bbram (i : Nat) (k : KeySlot) : (s.setSlot i k).bbram = s.bbram := rfl
@[simp] theorem setSlot_dram (i : Nat) (k : KeySlot) : (s.setSlot i k).dram = s.dram := rfl
@[simp] theorem setSlot_ent (i : Nat) (k : KeySlot) : (s.setSlot i k).ent = s.ent := rfl
@[simp] theorem setSlot_otp (i : Nat) (k : KeySlot) : (s.setSlot i k).otp = s.otp := rfl
@[simp] theorem setSlot_lc (i : Nat) (k : KeySlot) : (s.setSlot i k).lc = s.lc := rfl
@[simp] theorem setSlot_lcc (i : Nat) (k : KeySlot) : (s.setSlot i k).lcc = s.lcc := rfl
@[simp] theorem setSlot_boot (i : Nat) (k : KeySlot) : (s.setSlot i k).boot = s.boot := rfl
@[simp] theorem setSlot_tmp (i : Nat) (k : KeySlot) : (s.setSlot i k).tmp = s.tmp := rfl
@[simp] theorem setSlot_alarm (i : Nat) (k : KeySlot) : (s.setSlot i k).alarm = s.alarm := rfl
@[simp] theorem setSlot_gov (i : Nat) (k : KeySlot) : (s.setSlot i k).gov = s.gov := rfl
@[simp] theorem setSlot_dge (i : Nat) (k : KeySlot) : (s.setSlot i k).dge = s.dge := rfl
@[simp] theorem setSlot_dma (i : Nat) (k : KeySlot) : (s.setSlot i k).dma = s.dma := rfl
@[simp] theorem setSlot_sd (i : Nat) (k : KeySlot) : (s.setSlot i k).sd = s.sd := rfl
@[simp] theorem setSlot_nor (i : Nat) (k : KeySlot) : (s.setSlot i k).nor = s.nor := rfl
@[simp] theorem setSlot_mgt (i : Nat) (k : KeySlot) : (s.setSlot i k).mgt = s.mgt := rfl
@[simp] theorem setSlot_budgetStart (i : Nat) (k : KeySlot) : (s.setSlot i k).budgetStart = s.budgetStart := rfl
@[simp] theorem setSlot_rdata (i : Nat) (k : KeySlot) : (s.setSlot i k).rdata = s.rdata := rfl

@[simp] theorem setMau_pending (u : Nat) (m : Mau) : (s.setMau u m).pending = s.pending := rfl
@[simp] theorem setMau_freeCtr (u : Nat) (m : Mau) : (s.setMau u m).freeCtr = s.freeCtr := rfl
@[simp] theorem setMau_g (u : Nat) (m : Mau) : (s.setMau u m).g = s.g := rfl
@[simp] theorem setMau_regs (u : Nat) (m : Mau) : (s.setMau u m).regs = s.regs := rfl
@[simp] theorem setMau_faults (u : Nat) (m : Mau) : (s.setMau u m).faults = s.faults := rfl
@[simp] theorem setMau_evr (u : Nat) (m : Mau) : (s.setMau u m).evr = s.evr := rfl
@[simp] theorem setMau_faultPin (u : Nat) (m : Mau) : (s.setMau u m).faultPin = s.faultPin := rfl
@[simp] theorem setMau_msix (u : Nat) (m : Mau) : (s.setMau u m).msix = s.msix := rfl
@[simp] theorem setMau_hostMem (u : Nat) (m : Mau) : (s.setMau u m).hostMem = s.hostMem := rfl
@[simp] theorem setMau_instances (u : Nat) (m : Mau) : (s.setMau u m).instances = s.instances := rfl
@[simp] theorem setMau_link (u : Nat) (m : Mau) : (s.setMau u m).link = s.link := rfl
@[simp] theorem setMau_engines (u : Nat) (m : Mau) : (s.setMau u m).engines = s.engines := rfl
@[simp] theorem setMau_clusters (u : Nat) (m : Mau) : (s.setMau u m).clusters = s.clusters := rfl
@[simp] theorem setMau_sch (u : Nat) (m : Mau) : (s.setMau u m).sch = s.sch := rfl
@[simp] theorem setMau_keys (u : Nat) (m : Mau) : (s.setMau u m).keys = s.keys := rfl
@[simp] theorem setMau_bbram (u : Nat) (m : Mau) : (s.setMau u m).bbram = s.bbram := rfl
@[simp] theorem setMau_dram (u : Nat) (m : Mau) : (s.setMau u m).dram = s.dram := rfl
@[simp] theorem setMau_ent (u : Nat) (m : Mau) : (s.setMau u m).ent = s.ent := rfl
@[simp] theorem setMau_otp (u : Nat) (m : Mau) : (s.setMau u m).otp = s.otp := rfl
@[simp] theorem setMau_lc (u : Nat) (m : Mau) : (s.setMau u m).lc = s.lc := rfl
@[simp] theorem setMau_lcc (u : Nat) (m : Mau) : (s.setMau u m).lcc = s.lcc := rfl
@[simp] theorem setMau_boot (u : Nat) (m : Mau) : (s.setMau u m).boot = s.boot := rfl
@[simp] theorem setMau_tmp (u : Nat) (m : Mau) : (s.setMau u m).tmp = s.tmp := rfl
@[simp] theorem setMau_alarm (u : Nat) (m : Mau) : (s.setMau u m).alarm = s.alarm := rfl
@[simp] theorem setMau_gov (u : Nat) (m : Mau) : (s.setMau u m).gov = s.gov := rfl
@[simp] theorem setMau_dge (u : Nat) (m : Mau) : (s.setMau u m).dge = s.dge := rfl
@[simp] theorem setMau_dma (u : Nat) (m : Mau) : (s.setMau u m).dma = s.dma := rfl
@[simp] theorem setMau_sd (u : Nat) (m : Mau) : (s.setMau u m).sd = s.sd := rfl
@[simp] theorem setMau_nor (u : Nat) (m : Mau) : (s.setMau u m).nor = s.nor := rfl
@[simp] theorem setMau_mgt (u : Nat) (m : Mau) : (s.setMau u m).mgt = s.mgt := rfl
@[simp] theorem setMau_budgetStart (u : Nat) (m : Mau) : (s.setMau u m).budgetStart = s.budgetStart := rfl
@[simp] theorem setMau_rdata (u : Nat) (m : Mau) : (s.setMau u m).rdata = s.rdata := rfl

@[simp] theorem setCall_pending (k : Nat) (c : Option Call) : (s.setCall k c).pending = s.pending := rfl
@[simp] theorem setCall_freeCtr (k : Nat) (c : Option Call) : (s.setCall k c).freeCtr = s.freeCtr := rfl
@[simp] theorem setCall_g (k : Nat) (c : Option Call) : (s.setCall k c).g = s.g := rfl
@[simp] theorem setCall_regs (k : Nat) (c : Option Call) : (s.setCall k c).regs = s.regs := rfl
@[simp] theorem setCall_faults (k : Nat) (c : Option Call) : (s.setCall k c).faults = s.faults := rfl
@[simp] theorem setCall_evr (k : Nat) (c : Option Call) : (s.setCall k c).evr = s.evr := rfl
@[simp] theorem setCall_faultPin (k : Nat) (c : Option Call) : (s.setCall k c).faultPin = s.faultPin := rfl
@[simp] theorem setCall_msix (k : Nat) (c : Option Call) : (s.setCall k c).msix = s.msix := rfl
@[simp] theorem setCall_hostMem (k : Nat) (c : Option Call) : (s.setCall k c).hostMem = s.hostMem := rfl
@[simp] theorem setCall_instances (k : Nat) (c : Option Call) : (s.setCall k c).instances = s.instances := rfl
@[simp] theorem setCall_link (k : Nat) (c : Option Call) : (s.setCall k c).link = s.link := rfl
@[simp] theorem setCall_engines (k : Nat) (c : Option Call) : (s.setCall k c).engines = s.engines := rfl
@[simp] theorem setCall_clusters (k : Nat) (c : Option Call) : (s.setCall k c).clusters = s.clusters := rfl
@[simp] theorem setCall_maus (k : Nat) (c : Option Call) : (s.setCall k c).maus = s.maus := rfl
@[simp] theorem setCall_keys (k : Nat) (c : Option Call) : (s.setCall k c).keys = s.keys := rfl
@[simp] theorem setCall_bbram (k : Nat) (c : Option Call) : (s.setCall k c).bbram = s.bbram := rfl
@[simp] theorem setCall_dram (k : Nat) (c : Option Call) : (s.setCall k c).dram = s.dram := rfl
@[simp] theorem setCall_ent (k : Nat) (c : Option Call) : (s.setCall k c).ent = s.ent := rfl
@[simp] theorem setCall_otp (k : Nat) (c : Option Call) : (s.setCall k c).otp = s.otp := rfl
@[simp] theorem setCall_lc (k : Nat) (c : Option Call) : (s.setCall k c).lc = s.lc := rfl
@[simp] theorem setCall_lcc (k : Nat) (c : Option Call) : (s.setCall k c).lcc = s.lcc := rfl
@[simp] theorem setCall_boot (k : Nat) (c : Option Call) : (s.setCall k c).boot = s.boot := rfl
@[simp] theorem setCall_tmp (k : Nat) (c : Option Call) : (s.setCall k c).tmp = s.tmp := rfl
@[simp] theorem setCall_alarm (k : Nat) (c : Option Call) : (s.setCall k c).alarm = s.alarm := rfl
@[simp] theorem setCall_gov (k : Nat) (c : Option Call) : (s.setCall k c).gov = s.gov := rfl
@[simp] theorem setCall_dge (k : Nat) (c : Option Call) : (s.setCall k c).dge = s.dge := rfl
@[simp] theorem setCall_dma (k : Nat) (c : Option Call) : (s.setCall k c).dma = s.dma := rfl
@[simp] theorem setCall_sd (k : Nat) (c : Option Call) : (s.setCall k c).sd = s.sd := rfl
@[simp] theorem setCall_nor (k : Nat) (c : Option Call) : (s.setCall k c).nor = s.nor := rfl
@[simp] theorem setCall_mgt (k : Nat) (c : Option Call) : (s.setCall k c).mgt = s.mgt := rfl
@[simp] theorem setCall_budgetStart (k : Nat) (c : Option Call) : (s.setCall k c).budgetStart = s.budgetStart := rfl
@[simp] theorem setCall_rdata (k : Nat) (c : Option Call) : (s.setCall k c).rdata = s.rdata := rfl

@[simp] theorem setCtr_pending (n : Nat) (c : ResCounter) : (s.setCtr n c).pending = s.pending := rfl
@[simp] theorem setCtr_freeCtr (n : Nat) (c : ResCounter) : (s.setCtr n c).freeCtr = s.freeCtr := rfl
@[simp] theorem setCtr_g (n : Nat) (c : ResCounter) : (s.setCtr n c).g = s.g := rfl
@[simp] theorem setCtr_regs (n : Nat) (c : ResCounter) : (s.setCtr n c).regs = s.regs := rfl
@[simp] theorem setCtr_faults (n : Nat) (c : ResCounter) : (s.setCtr n c).faults = s.faults := rfl
@[simp] theorem setCtr_evr (n : Nat) (c : ResCounter) : (s.setCtr n c).evr = s.evr := rfl
@[simp] theorem setCtr_faultPin (n : Nat) (c : ResCounter) : (s.setCtr n c).faultPin = s.faultPin := rfl
@[simp] theorem setCtr_msix (n : Nat) (c : ResCounter) : (s.setCtr n c).msix = s.msix := rfl
@[simp] theorem setCtr_hostMem (n : Nat) (c : ResCounter) : (s.setCtr n c).hostMem = s.hostMem := rfl
@[simp] theorem setCtr_instances (n : Nat) (c : ResCounter) : (s.setCtr n c).instances = s.instances := rfl
@[simp] theorem setCtr_link (n : Nat) (c : ResCounter) : (s.setCtr n c).link = s.link := rfl
@[simp] theorem setCtr_engines (n : Nat) (c : ResCounter) : (s.setCtr n c).engines = s.engines := rfl
@[simp] theorem setCtr_clusters (n : Nat) (c : ResCounter) : (s.setCtr n c).clusters = s.clusters := rfl
@[simp] theorem setCtr_sch (n : Nat) (c : ResCounter) : (s.setCtr n c).sch = s.sch := rfl
@[simp] theorem setCtr_maus (n : Nat) (c : ResCounter) : (s.setCtr n c).maus = s.maus := rfl
@[simp] theorem setCtr_keys (n : Nat) (c : ResCounter) : (s.setCtr n c).keys = s.keys := rfl
@[simp] theorem setCtr_dram (n : Nat) (c : ResCounter) : (s.setCtr n c).dram = s.dram := rfl
@[simp] theorem setCtr_ent (n : Nat) (c : ResCounter) : (s.setCtr n c).ent = s.ent := rfl
@[simp] theorem setCtr_otp (n : Nat) (c : ResCounter) : (s.setCtr n c).otp = s.otp := rfl
@[simp] theorem setCtr_lc (n : Nat) (c : ResCounter) : (s.setCtr n c).lc = s.lc := rfl
@[simp] theorem setCtr_lcc (n : Nat) (c : ResCounter) : (s.setCtr n c).lcc = s.lcc := rfl
@[simp] theorem setCtr_boot (n : Nat) (c : ResCounter) : (s.setCtr n c).boot = s.boot := rfl
@[simp] theorem setCtr_tmp (n : Nat) (c : ResCounter) : (s.setCtr n c).tmp = s.tmp := rfl
@[simp] theorem setCtr_alarm (n : Nat) (c : ResCounter) : (s.setCtr n c).alarm = s.alarm := rfl
@[simp] theorem setCtr_gov (n : Nat) (c : ResCounter) : (s.setCtr n c).gov = s.gov := rfl
@[simp] theorem setCtr_dge (n : Nat) (c : ResCounter) : (s.setCtr n c).dge = s.dge := rfl
@[simp] theorem setCtr_dma (n : Nat) (c : ResCounter) : (s.setCtr n c).dma = s.dma := rfl
@[simp] theorem setCtr_sd (n : Nat) (c : ResCounter) : (s.setCtr n c).sd = s.sd := rfl
@[simp] theorem setCtr_nor (n : Nat) (c : ResCounter) : (s.setCtr n c).nor = s.nor := rfl
@[simp] theorem setCtr_mgt (n : Nat) (c : ResCounter) : (s.setCtr n c).mgt = s.mgt := rfl
@[simp] theorem setCtr_budgetStart (n : Nat) (c : ResCounter) : (s.setCtr n c).budgetStart = s.budgetStart := rfl
@[simp] theorem setCtr_rdata (n : Nat) (c : ResCounter) : (s.setCtr n c).rdata = s.rdata := rfl

@[simp] theorem setCtx_pending (k : Nat) (c : DgeCtx) : (s.setCtx k c).pending = s.pending := rfl
@[simp] theorem setCtx_freeCtr (k : Nat) (c : DgeCtx) : (s.setCtx k c).freeCtr = s.freeCtr := rfl
@[simp] theorem setCtx_g (k : Nat) (c : DgeCtx) : (s.setCtx k c).g = s.g := rfl
@[simp] theorem setCtx_regs (k : Nat) (c : DgeCtx) : (s.setCtx k c).regs = s.regs := rfl
@[simp] theorem setCtx_faults (k : Nat) (c : DgeCtx) : (s.setCtx k c).faults = s.faults := rfl
@[simp] theorem setCtx_evr (k : Nat) (c : DgeCtx) : (s.setCtx k c).evr = s.evr := rfl
@[simp] theorem setCtx_faultPin (k : Nat) (c : DgeCtx) : (s.setCtx k c).faultPin = s.faultPin := rfl
@[simp] theorem setCtx_msix (k : Nat) (c : DgeCtx) : (s.setCtx k c).msix = s.msix := rfl
@[simp] theorem setCtx_hostMem (k : Nat) (c : DgeCtx) : (s.setCtx k c).hostMem = s.hostMem := rfl
@[simp] theorem setCtx_instances (k : Nat) (c : DgeCtx) : (s.setCtx k c).instances = s.instances := rfl
@[simp] theorem setCtx_link (k : Nat) (c : DgeCtx) : (s.setCtx k c).link = s.link := rfl
@[simp] theorem setCtx_engines (k : Nat) (c : DgeCtx) : (s.setCtx k c).engines = s.engines := rfl
@[simp] theorem setCtx_clusters (k : Nat) (c : DgeCtx) : (s.setCtx k c).clusters = s.clusters := rfl
@[simp] theorem setCtx_sch (k : Nat) (c : DgeCtx) : (s.setCtx k c).sch = s.sch := rfl
@[simp] theorem setCtx_maus (k : Nat) (c : DgeCtx) : (s.setCtx k c).maus = s.maus := rfl
@[simp] theorem setCtx_keys (k : Nat) (c : DgeCtx) : (s.setCtx k c).keys = s.keys := rfl
@[simp] theorem setCtx_bbram (k : Nat) (c : DgeCtx) : (s.setCtx k c).bbram = s.bbram := rfl
@[simp] theorem setCtx_dram (k : Nat) (c : DgeCtx) : (s.setCtx k c).dram = s.dram := rfl
@[simp] theorem setCtx_ent (k : Nat) (c : DgeCtx) : (s.setCtx k c).ent = s.ent := rfl
@[simp] theorem setCtx_otp (k : Nat) (c : DgeCtx) : (s.setCtx k c).otp = s.otp := rfl
@[simp] theorem setCtx_lc (k : Nat) (c : DgeCtx) : (s.setCtx k c).lc = s.lc := rfl
@[simp] theorem setCtx_lcc (k : Nat) (c : DgeCtx) : (s.setCtx k c).lcc = s.lcc := rfl
@[simp] theorem setCtx_boot (k : Nat) (c : DgeCtx) : (s.setCtx k c).boot = s.boot := rfl
@[simp] theorem setCtx_tmp (k : Nat) (c : DgeCtx) : (s.setCtx k c).tmp = s.tmp := rfl
@[simp] theorem setCtx_alarm (k : Nat) (c : DgeCtx) : (s.setCtx k c).alarm = s.alarm := rfl
@[simp] theorem setCtx_gov (k : Nat) (c : DgeCtx) : (s.setCtx k c).gov = s.gov := rfl
@[simp] theorem setCtx_dma (k : Nat) (c : DgeCtx) : (s.setCtx k c).dma = s.dma := rfl
@[simp] theorem setCtx_sd (k : Nat) (c : DgeCtx) : (s.setCtx k c).sd = s.sd := rfl
@[simp] theorem setCtx_nor (k : Nat) (c : DgeCtx) : (s.setCtx k c).nor = s.nor := rfl
@[simp] theorem setCtx_mgt (k : Nat) (c : DgeCtx) : (s.setCtx k c).mgt = s.mgt := rfl
@[simp] theorem setCtx_budgetStart (k : Nat) (c : DgeCtx) : (s.setCtx k c).budgetStart = s.budgetStart := rfl
@[simp] theorem setCtx_rdata (k : Nat) (c : DgeCtx) : (s.setCtx k c).rdata = s.rdata := rfl

@[simp] theorem setCh_pending (n : Nat) (c : DmaCh) : (s.setCh n c).pending = s.pending := rfl
@[simp] theorem setCh_freeCtr (n : Nat) (c : DmaCh) : (s.setCh n c).freeCtr = s.freeCtr := rfl
@[simp] theorem setCh_g (n : Nat) (c : DmaCh) : (s.setCh n c).g = s.g := rfl
@[simp] theorem setCh_regs (n : Nat) (c : DmaCh) : (s.setCh n c).regs = s.regs := rfl
@[simp] theorem setCh_faults (n : Nat) (c : DmaCh) : (s.setCh n c).faults = s.faults := rfl
@[simp] theorem setCh_evr (n : Nat) (c : DmaCh) : (s.setCh n c).evr = s.evr := rfl
@[simp] theorem setCh_faultPin (n : Nat) (c : DmaCh) : (s.setCh n c).faultPin = s.faultPin := rfl
@[simp] theorem setCh_msix (n : Nat) (c : DmaCh) : (s.setCh n c).msix = s.msix := rfl
@[simp] theorem setCh_hostMem (n : Nat) (c : DmaCh) : (s.setCh n c).hostMem = s.hostMem := rfl
@[simp] theorem setCh_instances (n : Nat) (c : DmaCh) : (s.setCh n c).instances = s.instances := rfl
@[simp] theorem setCh_link (n : Nat) (c : DmaCh) : (s.setCh n c).link = s.link := rfl
@[simp] theorem setCh_engines (n : Nat) (c : DmaCh) : (s.setCh n c).engines = s.engines := rfl
@[simp] theorem setCh_clusters (n : Nat) (c : DmaCh) : (s.setCh n c).clusters = s.clusters := rfl
@[simp] theorem setCh_sch (n : Nat) (c : DmaCh) : (s.setCh n c).sch = s.sch := rfl
@[simp] theorem setCh_maus (n : Nat) (c : DmaCh) : (s.setCh n c).maus = s.maus := rfl
@[simp] theorem setCh_keys (n : Nat) (c : DmaCh) : (s.setCh n c).keys = s.keys := rfl
@[simp] theorem setCh_bbram (n : Nat) (c : DmaCh) : (s.setCh n c).bbram = s.bbram := rfl
@[simp] theorem setCh_dram (n : Nat) (c : DmaCh) : (s.setCh n c).dram = s.dram := rfl
@[simp] theorem setCh_ent (n : Nat) (c : DmaCh) : (s.setCh n c).ent = s.ent := rfl
@[simp] theorem setCh_otp (n : Nat) (c : DmaCh) : (s.setCh n c).otp = s.otp := rfl
@[simp] theorem setCh_lc (n : Nat) (c : DmaCh) : (s.setCh n c).lc = s.lc := rfl
@[simp] theorem setCh_lcc (n : Nat) (c : DmaCh) : (s.setCh n c).lcc = s.lcc := rfl
@[simp] theorem setCh_boot (n : Nat) (c : DmaCh) : (s.setCh n c).boot = s.boot := rfl
@[simp] theorem setCh_tmp (n : Nat) (c : DmaCh) : (s.setCh n c).tmp = s.tmp := rfl
@[simp] theorem setCh_alarm (n : Nat) (c : DmaCh) : (s.setCh n c).alarm = s.alarm := rfl
@[simp] theorem setCh_gov (n : Nat) (c : DmaCh) : (s.setCh n c).gov = s.gov := rfl
@[simp] theorem setCh_dge (n : Nat) (c : DmaCh) : (s.setCh n c).dge = s.dge := rfl
@[simp] theorem setCh_sd (n : Nat) (c : DmaCh) : (s.setCh n c).sd = s.sd := rfl
@[simp] theorem setCh_nor (n : Nat) (c : DmaCh) : (s.setCh n c).nor = s.nor := rfl
@[simp] theorem setCh_mgt (n : Nat) (c : DmaCh) : (s.setCh n c).mgt = s.mgt := rfl
@[simp] theorem setCh_budgetStart (n : Nat) (c : DmaCh) : (s.setCh n c).budgetStart = s.budgetStart := rfl
@[simp] theorem setCh_rdata (n : Nat) (c : DmaCh) : (s.setCh n c).rdata = s.rdata := rfl

@[simp] theorem setDrbg_pending (n : Nat) (d : Drbg) : (s.setDrbg n d).pending = s.pending := rfl
@[simp] theorem setDrbg_freeCtr (n : Nat) (d : Drbg) : (s.setDrbg n d).freeCtr = s.freeCtr := rfl
@[simp] theorem setDrbg_g (n : Nat) (d : Drbg) : (s.setDrbg n d).g = s.g := rfl
@[simp] theorem setDrbg_regs (n : Nat) (d : Drbg) : (s.setDrbg n d).regs = s.regs := rfl
@[simp] theorem setDrbg_faults (n : Nat) (d : Drbg) : (s.setDrbg n d).faults = s.faults := rfl
@[simp] theorem setDrbg_evr (n : Nat) (d : Drbg) : (s.setDrbg n d).evr = s.evr := rfl
@[simp] theorem setDrbg_faultPin (n : Nat) (d : Drbg) : (s.setDrbg n d).faultPin = s.faultPin := rfl
@[simp] theorem setDrbg_msix (n : Nat) (d : Drbg) : (s.setDrbg n d).msix = s.msix := rfl
@[simp] theorem setDrbg_hostMem (n : Nat) (d : Drbg) : (s.setDrbg n d).hostMem = s.hostMem := rfl
@[simp] theorem setDrbg_instances (n : Nat) (d : Drbg) : (s.setDrbg n d).instances = s.instances := rfl
@[simp] theorem setDrbg_link (n : Nat) (d : Drbg) : (s.setDrbg n d).link = s.link := rfl
@[simp] theorem setDrbg_engines (n : Nat) (d : Drbg) : (s.setDrbg n d).engines = s.engines := rfl
@[simp] theorem setDrbg_clusters (n : Nat) (d : Drbg) : (s.setDrbg n d).clusters = s.clusters := rfl
@[simp] theorem setDrbg_sch (n : Nat) (d : Drbg) : (s.setDrbg n d).sch = s.sch := rfl
@[simp] theorem setDrbg_maus (n : Nat) (d : Drbg) : (s.setDrbg n d).maus = s.maus := rfl
@[simp] theorem setDrbg_keys (n : Nat) (d : Drbg) : (s.setDrbg n d).keys = s.keys := rfl
@[simp] theorem setDrbg_bbram (n : Nat) (d : Drbg) : (s.setDrbg n d).bbram = s.bbram := rfl
@[simp] theorem setDrbg_dram (n : Nat) (d : Drbg) : (s.setDrbg n d).dram = s.dram := rfl
@[simp] theorem setDrbg_otp (n : Nat) (d : Drbg) : (s.setDrbg n d).otp = s.otp := rfl
@[simp] theorem setDrbg_lc (n : Nat) (d : Drbg) : (s.setDrbg n d).lc = s.lc := rfl
@[simp] theorem setDrbg_lcc (n : Nat) (d : Drbg) : (s.setDrbg n d).lcc = s.lcc := rfl
@[simp] theorem setDrbg_boot (n : Nat) (d : Drbg) : (s.setDrbg n d).boot = s.boot := rfl
@[simp] theorem setDrbg_tmp (n : Nat) (d : Drbg) : (s.setDrbg n d).tmp = s.tmp := rfl
@[simp] theorem setDrbg_alarm (n : Nat) (d : Drbg) : (s.setDrbg n d).alarm = s.alarm := rfl
@[simp] theorem setDrbg_gov (n : Nat) (d : Drbg) : (s.setDrbg n d).gov = s.gov := rfl
@[simp] theorem setDrbg_dge (n : Nat) (d : Drbg) : (s.setDrbg n d).dge = s.dge := rfl
@[simp] theorem setDrbg_dma (n : Nat) (d : Drbg) : (s.setDrbg n d).dma = s.dma := rfl
@[simp] theorem setDrbg_sd (n : Nat) (d : Drbg) : (s.setDrbg n d).sd = s.sd := rfl
@[simp] theorem setDrbg_nor (n : Nat) (d : Drbg) : (s.setDrbg n d).nor = s.nor := rfl
@[simp] theorem setDrbg_mgt (n : Nat) (d : Drbg) : (s.setDrbg n d).mgt = s.mgt := rfl
@[simp] theorem setDrbg_budgetStart (n : Nat) (d : Drbg) : (s.setDrbg n d).budgetStart = s.budgetStart := rfl
@[simp] theorem setDrbg_rdata (n : Nat) (d : Drbg) : (s.setDrbg n d).rdata = s.rdata := rfl

end Sys2Proof.Machine
end

