-- ==== Sys2Proof/Laws/Issue.lean ====
section
/-!
SUPPORT. What issuing a word can do: nothing on an engine that issues nothing, the exception of a refused word, or its
effect and the step to the next word.
-/
namespace Sys2Proof.Machine

/-- A word sent to an engine that issues nothing changes nothing. -/
theorem issue_not_issuing {s : State} {i : Nat} {row : Engine → Row} {eff : State → Eff}
    (h : (s.eng i).issuing = false) : s.issue i row eff = s := by simp [State.issue, h]

/-- A refused word takes its exception. -/
theorem issue_refused {s : State} {i : Nat} {row : Engine → Row} {eff : State → Eff} {c : Cause} {src : Nat}
    (h : (s.eng i).issuing = true) (hr : (s.eng i).refuses (row (s.eng i)) = some (c, src)) :
    s.issue i row eff = s.takeExc i c src 0 := by simp [State.issue, h, hr]

/-- A word that completes: its effect, then the next word. -/
theorem issue_done {s s' : State} {i : Nat} {row : Engine → Row} {eff : State → Eff}
    (h : (s.eng i).MayIssue (row (s.eng i))) (he : eff s = .done s') :
    s.issue i row eff = s'.setEng i ((s'.eng i).retire (row (s.eng i)) (s.eng i)) := by
  simp [State.issue, h.1, h.2, he]

/-- A word whose effect meets an exception takes it with what was done. -/
theorem issue_exc {s s' : State} {i : Nat} {row : Engine → Row} {eff : State → Eff} {c : Cause} {src eri : Nat}
    (h : (s.eng i).MayIssue (row (s.eng i))) (he : eff s = .exc c src eri s') :
    s.issue i row eff = s'.takeExc i c src eri := by
  simp [State.issue, h.1, h.2, he]

/-- Replacing an engine twice is replacing it once. -/
theorem mdel_minsert {α : Type} (m : Map α) (i : Nat) (x : α) (h : ∀ e ∈ m, e.1 ≠ i) : mdel (minsert i x m) i = m := by
  induction m with
  | nil => simp [minsert, mdel]
  | cons e t ih =>
    have h1 : e.1 ≠ i := h e (by simp)
    have ht : mdel t i = t := by
      simp only [mdel, List.filter_eq_self]
      intro y hy; simpa using h y (by simp [hy])
    have h2 := ih fun y hy => h y (by simp [hy])
    simp only [minsert]
    split
    · simp only [mdel, List.filter_cons] at ht ⊢
      simp [h1, ht]
    · simp only [mdel, List.filter_cons] at h2 ⊢
      simp [h1, h2]

/-- The last of two writes of one key stands. -/
theorem mset_mset {α : Type} [DecidableEq α] (d : Nat → α) (m : Map α) (i : Nat) (x y : α) :
    mset d (mset d m i x) i y = mset d m i y := by
  have hm : ∀ e ∈ mdel m i, e.1 ≠ i := by
    intro e he; simp only [mdel, List.mem_filter] at he; simpa using he.2
  have hd : mdel (mdel m i) i = mdel m i := by
    simp [mdel, List.filter_filter]
  have : mdel (mset d m i x) i = mdel m i := by
    unfold mset; split
    · exact hd
    · exact mdel_minsert _ i x hm
  unfold mset at this ⊢
  rw [this]

/-- Of two replacements of one engine the last stands. -/
@[simp] theorem setEng_setEng (s : State) (i : Nat) (x y : Engine) : (s.setEng i x).setEng i y = s.setEng i y := by
  simp [State.setEng, mset_mset]

/-- A word whose effect only changes its engine. -/
theorem issueWord_onEngine {id : EngId} {row : Engine → Row} {f : Engine → Engine} {s : State}
    (h : (s.eng id.idx).MayIssue (row (s.eng id.idx))) :
    issueWord id row (onEngine id f) s =
      .next (s.setEng id.idx ((f (s.eng id.idx)).retire (row (s.eng id.idx)) (s.eng id.idx))) := by
  have he : onEngine id f s = .done (s.setEng id.idx (f (s.eng id.idx))) := rfl
  rw [issueWord, issue_done h he]
  simp

/-- Retiring keeps everything that `still` shows. -/
@[simp] theorem still_retire (e : Engine) (r : Row) (old : Engine) : (e.retire r old).still = e.still := rfl

/-- Retiring keeps the registers. -/
@[simp] theorem sregs_retire (e : Engine) (r : Row) (old : Engine) : (e.retire r old).sregs = e.sregs := rfl
@[simp] theorem vregs_retire (e : Engine) (r : Row) (old : Engine) : (e.retire r old).vregs = e.vregs := rfl
@[simp] theorem pregs_retire (e : Engine) (r : Row) (old : Engine) : (e.retire r old).pregs = e.pregs := rfl
@[simp] theorem dmem_retire (e : Engine) (r : Row) (old : Engine) : (e.retire r old).dmem = e.dmem := rfl
@[simp] theorem sreg_retire (e : Engine) (r : Row) (old : Engine) (n : Nat) : (e.retire r old).sreg n = e.sreg n := rfl
@[simp] theorem preg_retire (e : Engine) (r : Row) (old : Engine) (n : Nat) : (e.retire r old).preg n = e.preg n := rfl
@[simp] theorem vreg_retire (e : Engine) (r : Row) (old : Engine) (n : Nat) : (e.retire r old).vreg n = e.vreg n := rfl
@[simp] theorem wide_retire (e : Engine) (r : Row) (old : Engine) (pr : Bool) (n : Nat) :
    (e.retire r old).wide pr n = e.wide pr n := rfl

/-! ## Registers -/

/-- A scalar register after a write; s0 takes none (R49). -/
theorem sreg_setSreg (e : Engine) (d n : Nat) (v : W64) :
    (e.setSreg d v).sreg n = if n = d ∧ n ≠ 0 then v else e.sreg n := by
  unfold Engine.setSreg Engine.sreg
  by_cases hn : n = 0
  · subst hn; simp
  · by_cases hd : d = 0
    · subst hd; simp [hn]
    · simp only [hn, hd, if_false, mget_mset, ne_eq, not_false_eq_true, and_true]
      by_cases h : d = n
      · simp [h]
      · simp [h, Ne.symm h]

/-- A predicate register after a write; p0 takes none (R52). -/
theorem preg_setPreg (e : Engine) (d n : Nat) (v : PReg) :
    (e.setPreg d v).preg n = if n = d ∧ n ≠ 0 then v else e.preg n := by
  unfold Engine.setPreg Engine.preg
  by_cases hn : n = 0
  · subst hn; simp
  · by_cases hd : d = 0
    · subst hd; simp [hn]
    · simp only [hn, hd, if_false, mget_mset, ne_eq, not_false_eq_true, and_true]
      by_cases h : d = n
      · simp [h]
      · simp [h, Ne.symm h]

/-- A vector register after a write. -/
theorem vreg_setVreg (e : Engine) (d n : Nat) (v : VReg) :
    (e.setVreg d v).vreg n = if d = n then v else e.vreg n := by
  simp [Engine.setVreg, Engine.vreg, mget_mset]

/-- Mending a place changes the parity marks alone, and there alone. -/
@[simp] theorem still_mend (e : Engine) (p : ParityPlace) :
    (e.mend p).still = Engine.still { e with badParity := (e.mend p).badParity } := rfl
theorem marksMend_mend (e : Engine) (p : ParityPlace) : MarksMend [p] e (e.mend p) := by
  simp only [MarksMend, Engine.mend, List.mem_filter, List.mem_singleton]
  exact ⟨fun _ h => h.1, fun q hq h => ⟨h, by simp [hq]⟩⟩
theorem marksMend_refl (l : List ParityPlace) (e : Engine) : MarksMend l e e := ⟨fun _ h => h, fun _ _ h => h⟩

/-- Writing a scalar register changes the scalar registers and its parity mark alone. -/
theorem still_setSreg (e : Engine) (d : Nat) (v : W64) :
    (e.setSreg d v).still
      = Engine.still { e with sregs := (e.setSreg d v).sregs, badParity := (e.setSreg d v).badParity } := by
  unfold Engine.setSreg; split <;> rfl
theorem marks_setSreg (e : Engine) (d : Nat) (v : W64) :
    MarksMend [.sreg d] e (e.setSreg d v) ∧ (d ≠ 0 → ParityPlace.sreg d ∉ (e.setSreg d v).badParity) := by
  unfold Engine.setSreg
  split
  · rename_i h; exact ⟨marksMend_refl _ _, fun hd => absurd h hd⟩
  · exact ⟨marksMend_mend e (.sreg d), fun _ => by simp [Engine.mend]⟩

/-- Writing a predicate register changes the predicate registers and its parity mark alone. -/
theorem still_setPreg (e : Engine) (d : Nat) (v : PReg) :
    (e.setPreg d v).still
      = Engine.still { e with pregs := (e.setPreg d v).pregs, badParity := (e.setPreg d v).badParity } := by
  unfold Engine.setPreg; split <;> rfl
theorem marks_setPreg (e : Engine) (d : Nat) (v : PReg) :
    MarksMend [.preg d] e (e.setPreg d v) ∧ (d ≠ 0 → ParityPlace.preg d ∉ (e.setPreg d v).badParity) := by
  unfold Engine.setPreg
  split
  · rename_i h; exact ⟨marksMend_refl _ _, fun hd => absurd h hd⟩
  · exact ⟨marksMend_mend e (.preg d), fun _ => by simp [Engine.mend]⟩

/-- Writing a register or pair changes the vector registers and their parity marks alone. -/
theorem still_setWide (e : Engine) (pr : Bool) (d : Nat) (v : Wide) :
    (e.setWide pr d v).still
      = Engine.still { e with vregs := (e.setWide pr d v).vregs, badParity := (e.setWide pr d v).badParity } := by
  unfold Engine.setWide; dsimp only; split <;> rfl
theorem marks_setWide (e : Engine) (pr : Bool) (d : Nat) (v : Wide) :
    MarksMend (vregPlaces (formRegs pr d)) e (e.setWide pr d v) := by
  cases pr <;> simp only [MarksMend, vregPlaces, formRegs, Engine.setWide, Engine.setVreg, Engine.mend] <;> simp
  · exact ⟨fun _ h _ => h, fun _ h hp => ⟨hp, h⟩⟩
  · exact ⟨fun _ h _ _ => h, fun _ h1 h2 hp => ⟨hp, h2, h1⟩⟩

/-- A word that writes a scalar register and nothing else. -/
theorem scalarTakes_of_onEngine {id : EngId} {row : Engine → Row} {s : State} {d : Nat} {g : Engine → W64}
    (h : (s.eng id.idx).MayIssue (row (s.eng id.idx))) :
    ∃ t, issueWord id row (onEngine id fun e => e.setSreg d (g e)) s = .next t
      ∧ ScalarTakes id s d (g (s.eng id.idx)) t :=
  ⟨_, issueWord_onEngine h, _, rfl, by rw [still_retire, still_setSreg]; rfl, (marks_setSreg _ _ _).1, (marks_setSreg _ _ _).2,
    fun n => by simp [sreg_setSreg]⟩

/-- A word that writes a predicate register and nothing else. -/
theorem predTakes_of_onEngine {id : EngId} {row : Engine → Row} {s : State} {d : Nat} {g : Engine → PReg}
    (h : (s.eng id.idx).MayIssue (row (s.eng id.idx))) :
    ∃ t, issueWord id row (onEngine id fun e => e.setPreg d (g e)) s = .next t
      ∧ PredTakes id s d (g (s.eng id.idx)) t :=
  ⟨_, issueWord_onEngine h, _, rfl, by rw [still_retire, still_setPreg]; rfl, (marks_setPreg _ _ _).1, (marks_setPreg _ _ _).2,
    fun n => by simp [preg_setPreg]⟩

end Sys2Proof.Machine
end

