-- ==== Sys2Proof/Laws/Lanes.lean ====
section
/-! SUPPORT. The laws of vector lanes: a lane after lanes are written. -/
namespace Sys2Proof.Machine

/-- Bit `k` of a lane. -/
theorem testBit_lane (w : Nat) (v : Wide) (i k : Nat) :
    (lane w v i).testBit k = (decide (k < w) && v.getLsbD (w * i + k)) := by
  simp [lane, Nat.testBit_mod_two_pow, BitVec.getLsbD]

/-- Bit `k` of a vector with a lane replaced. -/
theorem getLsbD_setLane (w : Nat) (v : Wide) (i x k : Nat) (hk : k < 8192) :
    (setLane w v i x).getLsbD k =
      if w * i ≤ k ∧ k < w * i + w then x.testBit (k - w * i) else v.getLsbD k := by
  have hs (y : Nat) : (BitVec.ofNat 8192 y <<< (w * i)).getLsbD k = (decide (w * i ≤ k) && y.testBit (k - w * i)) := by
    rw [BitVec.getLsbD_shiftLeft, BitVec.getLsbD_ofNat]
    by_cases h1 : w * i ≤ k
    · have h2 : k - w * i < 8192 := by omega
      have h3 : ¬ k < w * i := by omega
      simp only [hk, h1, h2, h3, decide_true, decide_false, Bool.true_and, Bool.not_false]
    · have h3 : k < w * i := by omega
      simp only [h1, h3, decide_true, decide_false, Bool.not_true, Bool.and_false, Bool.false_and]
  have hw : (w * i ≤ k ∧ k < w * i + w) ↔ (w * i ≤ k ∧ k - w * i < w) := by omega
  have hm : (BitVec.ofNat 8192 (2 ^ w - 1) <<< (w * i)).getLsbD k = decide (w * i ≤ k ∧ k < w * i + w) := by
    rw [hs, Nat.testBit_two_pow_sub_one, decide_eq_decide.mpr hw, Bool.decide_and]
  have hx : (BitVec.ofNat 8192 (x % 2 ^ w) <<< (w * i)).getLsbD k =
      (decide (w * i ≤ k ∧ k < w * i + w) && x.testBit (k - w * i)) := by
    rw [hs, Nat.testBit_mod_two_pow, decide_eq_decide.mpr hw, Bool.decide_and, Bool.and_assoc]
  simp only [setLane, BitVec.getLsbD_or, BitVec.getLsbD_and, BitVec.getLsbD_not, hm, hx, hk, decide_true, Bool.true_and]
  by_cases h : w * i ≤ k ∧ k < w * i + w <;> simp [h]

/-- A lane after a lane is replaced. -/
theorem lane_setLane (w : Nat) (v : Wide) (i j x : Nat) (hj : w * j + w ≤ 8192) :
    lane w (setLane w v i x) j = if i = j then x % 2 ^ w else lane w v j := by
  apply Nat.eq_of_testBit_eq
  intro k
  rw [testBit_lane]
  by_cases hk : k < w
  · rw [getLsbD_setLane _ _ _ _ _ (by omega)]
    by_cases hij : i = j
    · subst hij
      simp [hk, Nat.testBit_mod_two_pow]
    · have : ¬(w * i ≤ w * j + k ∧ w * j + k < w * i + w) := by
        intro h
        rcases Nat.lt_or_gt_of_ne hij with h1 | h1
        · have := Nat.mul_le_mul_left w (Nat.succ_le_of_lt h1); rw [Nat.mul_succ] at this; omega
        · have := Nat.mul_le_mul_left w (Nat.succ_le_of_lt h1); rw [Nat.mul_succ] at this; omega
      simp [hij, this, testBit_lane]
  · by_cases hij : i = j <;> simp [hk, hij, Nat.testBit_mod_two_pow, testBit_lane]

/-- Lane `j` after the active lanes below `n` are written. -/
theorem lane_mapLanes (w : Nat) (act : Nat → Bool) (g : Nat → Nat) (v : Wide) (n j : Nat) (hj : w * j + w ≤ 8192) :
    lane w (mapLanes w act g v n) j = if j < n ∧ act j = true then g j % 2 ^ w else lane w v j := by
  induction n with
  | zero => simp [mapLanes]
  | succ n ih =>
    simp only [mapLanes]
    by_cases ha : act n = true
    · rw [if_pos ha, lane_setLane _ _ _ _ _ hj, ih]
      by_cases h : n = j
      · subst h; simp [ha]
      · have : (j < n + 1 ↔ j < n) := by omega
        simp [h, this]
    · rw [if_neg ha, ih]
      by_cases h : n = j
      · subst h; simp [ha]
      · have : (j < n + 1 ↔ j < n) := by omega
        simp [this]

end Sys2Proof.Machine
end

