-- ==== Sys2Proof/WellFormed.lean ====
section
/-!
DEFINITION. The terms of Instr that are commands of the block: the fields an engine word must leave 0 are 0 (R110), and
operands with fewer values than their type stay in range. A term that is not well-formed still has a meaning: an engine
word takes ILLEGAL_INSTR (R109), and an operand out of range selects nothing.
-/
namespace Sys2Proof

/-- The register form of a scalar word leaves bits [36:0] 0 (R110). -/
def fieldsOkSR (f : SR) : Bool := f.zero == 0#37

/-- An immediate word leaves bits [36:32] 0 (R110). -/
def fieldsOkSI (f : SI) : Bool := f.zero == 0#5

/-- A scalar word of either form (R110, R118). -/
def fieldsOkSForm : SForm → Bool
  | .sr f => fieldsOkSR f
  | .si f => fieldsOkSI f

/-- A control word leaves bits [51:32] 0 (R110). -/
def fieldsOkCF (f : CF) : Bool := f.zero == 0#20

/-- A vector word leaves bits [17:16] 0 (R110). -/
def fieldsOkVV (f : VV) : Bool := f.zero == 0#2

/-- A vector memory word leaves its zero field 0 (R110). -/
def fieldsOkVM (f : VM) : Bool := f.zero == 0#4

/-- A predicate word leaves its zero field 0 (R110). -/
def fieldsOkVP (f : VP) : Bool := f.zero == 0#33

/-- A key-port word leaves its zero field 0 (R110). -/
def fieldsOkKP (f : KP) : Bool := f.zero == 0#26

/-- A Tenant owns a virtual function, so never instance 0 (R45). -/
def partyOk : Party → Bool
  | .manager => true
  | .supervisor => true
  | .tenant i => i != 0#8

/-- The term is a command of the block. -/
def wellFormed (i : Instr) : Bool :=
  match i with
  | .add _ f => fieldsOkSForm f
  | .sub _ f => fieldsOkSR f
  | .and _ f => fieldsOkSForm f
  | .or _ f => fieldsOkSForm f
  | .xor _ f => fieldsOkSForm f
  | .sll _ f => fieldsOkSForm f
  | .srl _ f => fieldsOkSForm f
  | .sra _ f => fieldsOkSForm f
  | .mul _ f => fieldsOkSR f
  | .mulhu _ f => fieldsOkSR f
  | .sltu _ f => fieldsOkSR f
  | .slt _ f => fieldsOkSR f
  | .movi _ f => fieldsOkSI f
  | .movhi _ f => fieldsOkSI f
  | .ldb _ f => fieldsOkSI f
  | .ldh _ f => fieldsOkSI f
  | .ldw _ f => fieldsOkSI f
  | .ldd _ f => fieldsOkSI f
  | .stb _ f => fieldsOkSI f
  | .sth _ f => fieldsOkSI f
  | .stw _ f => fieldsOkSI f
  | .std _ f => fieldsOkSI f
  | .mfc _ f => fieldsOkSI f
  | .mtc _ f => fieldsOkSI f
  | .nopn _ f => fieldsOkCF f
  | .waitb _ f => fieldsOkCF f
  | .jmp _ f => fieldsOkCF f
  | .callSub _ f => fieldsOkCF f
  | .ret _ f => fieldsOkCF f
  | .loop _ f => fieldsOkCF f
  | .endPeal _ f => fieldsOkCF f
  | .pand _ f => fieldsOkVP f
  | .por _ f => fieldsOkVP f
  | .pxor _ f => fieldsOkVP f
  | .pandn _ f => fieldsOkVP f
  | .pnot _ f => fieldsOkVP f
  | .psetn _ f => fieldsOkVP f
  | .pcnt _ f => fieldsOkVP f
  | .vcmpeq _ f => fieldsOkVV f
  | .vcmpltu _ f => fieldsOkVV f
  | .vcmplts _ f => fieldsOkVV f
  | .vadd _ f => fieldsOkVV f
  | .vsub _ f => fieldsOkVV f
  | .vmullo _ f => fieldsOkVV f
  | .vmulhu _ f => fieldsOkVV f
  | .vmulhs _ f => fieldsOkVV f
  | .vand _ f => fieldsOkVV f
  | .vor _ f => fieldsOkVV f
  | .vxor _ f => fieldsOkVV f
  | .vandn _ f => fieldsOkVV f
  | .vslli _ f => fieldsOkVV f
  | .vsrli _ f => fieldsOkVV f
  | .vsrai _ f => fieldsOkVV f
  | .vsllv _ f => fieldsOkVV f
  | .vsrlv _ f => fieldsOkVV f
  | .vbcast _ f => fieldsOkVV f
  | .vmov _ f => fieldsOkVV f
  | .viota _ f => fieldsOkVV f
  | .vext _ f => fieldsOkVV f
  | .vperm _ f => fieldsOkVV f
  | .vmodset _ f => fieldsOkVV f
  | .vmadd _ f => fieldsOkVV f
  | .vmsub _ f => fieldsOkVV f
  | .vmneg _ f => fieldsOkVV f
  | .vmmulm _ f => fieldsOkVV f
  | .vmmulb _ f => fieldsOkVV f
  | .vmmulms _ f => fieldsOkVV f
  | .vmred _ f => fieldsOkVV f
  | .vmcent _ f => fieldsOkVV f
  | .vmlift _ f => fieldsOkVV f
  | .vbfct _ f => fieldsOkVV f
  | .vbfgs _ f => fieldsOkVV f
  | .vbfctx _ f => fieldsOkVV f
  | .vbfgsx _ f => fieldsOkVV f
  | .vbmul _ f => fieldsOkVV f
  | .vgfset _ f => fieldsOkVV f
  | .vgfmul _ f => fieldsOkVV f
  | .vgfsqr _ f => fieldsOkVV f
  | .vgfinv _ f => fieldsOkVV f
  | .vclmullo _ f => fieldsOkVV f
  | .vclmulhi _ f => fieldsOkVV f
  | .vcompr _ f => fieldsOkVV f
  | .vdecompr _ f => fieldsOkVV f
  | .vpack _ f => fieldsOkVV f
  | .vunpack _ f => fieldsOkVV f
  | .vp2r _ f => fieldsOkVV f
  | .vsplit _ f => fieldsOkVV f
  | .vld _ f => fieldsOkVM f
  | .vst _ f => fieldsOkVM f
  | .vldff _ f => fieldsOkVM f
  | .vgth _ f => fieldsOkVM f
  | .vsct _ f => fieldsOkVM f
  | .vlds _ f => fieldsOkVM f
  | .vsts _ f => fieldsOkVM f
  | .smadd _ f => fieldsOkVV f
  | .smsub _ f => fieldsOkVV f
  | .smmulc _ f => fieldsOkVV f
  | .saddp _ f => fieldsOkVV f
  | .sxor _ f => fieldsOkVV f
  | .sxorp _ f => fieldsOkVV f
  | .sand _ f => fieldsOkVV f
  | .sref _ f => fieldsOkVV f
  | .sb2a _ f => fieldsOkVV f
  | .sa2b _ f => fieldsOkVV f
  | .ssplit _ f => fieldsOkVV f
  | .sopen _ f => fieldsOkVV f
  | .scsel _ f => fieldsOkVV f
  | .mrd _ f => fieldsOkVV f
  | .vcsel _ f => fieldsOkVV f
  | .kinit _ f => fieldsOkVV f
  | .kabs _ f => fieldsOkVV f
  | .kperm _ f => fieldsOkVV f
  | .ksqz _ f => fieldsOkVV f
  | .ksave _ f => fieldsOkVV f
  | .krest _ f => fieldsOkVV f
  | .vcbd _ f => fieldsOkVV f
  | .vsrej _ f => fieldsOkVV f
  | .kld _ f => fieldsOkKP f
  | .kst _ f => fieldsOkKP f
  | .startBeat .. | .scrubBeat .. | .releaseBeat .. | .seedDelivery .. | .wakeWindowClear .. | .wakeCountDone ..
  | .vectorIdle .. | .gatingDone .. | .debugEnSet .. | .debugEnClear .. | .debugHalt .. | .debugStep ..
  | .debugResume .. | .debugDataAccess .. | .clusterRst .. | .clusterOos .. | .forceOn .. | .schLoadGo ..
  | .scoreVerifyDone | .schLoadDrop .. | .schPlaceGo .. | .engineLoadDone .. | .admitCall | .floorPeriodEnd => true
  | .stagingDone _ _ records => decide (records.length ≤ 4)
  | .startSlip .. | .streamWindowLate .. | .outputPushDone .. | .completionFifoDrain .. | .staggerEnd .. | .mlKemKeygen ..
  | .mlKemEncaps .. | .mlKemDecaps .. | .mlDsaKeygen .. | .mlDsaSign .. | .mlDsaVerify .. | .fnDsaKeygen ..
  | .fnDsaSign .. | .fnDsaVerify .. | .slhDsaKeygen .. | .slhDsaSign .. | .slhDsaSignContinuation .. | .slhDsaVerify ..
  | .slhDsaVerifyContinuation .. | .treeBegin .. | .treeStep .. | .treeEnd .. | .lmsSign .. | .lmsHssVerify ..
  | .xmssSign .. | .xmssVerify .. | .hqcKeygen .. | .hqcEncaps .. | .hqcDecaps .. | .mceDecaps ..
  | .mceEncBegin .. | .mceEncSeg .. | .mceEncEnd .. | .mceKgBegin .. | .mceKgStep .. | .mceKgEnd ..
  | .mcePkOut .. | .xKeygen .. | .xExchange .. | .edKeygen .. | .edSign .. | .edVerify ..
  | .hybridServer .. | .hybridClient .. | .hkdfSha256 .. | .hkdfSha384 .. | .kmac128 .. | .kmac256 ..
  | .userScoreCall .. | .rsaKeygen .. | .rsaSign .. | .rsaVerify .. | .rsaDecrypt .. | .rsaEncrypt ..
  | .ecKeygen .. | .ecdsaSign .. | .ecdsaVerify .. | .ecdh .. | .ecCurveLoad .. | .mauRaw ..
  | .rawLoad .. | .rawStore .. | .rawModset .. | .rawMadd .. | .rawMsub .. | .rawMmul ..
  | .rawMsqr .. | .rawTomont .. | .rawFrommont .. | .rawMexp .. | .rawMinv .. | .rawEcset ..
  | .rawEcchk .. | .rawEcadd .. | .rawEcmul .. => true
  | .mauPlace _ _ records => decide (records.length ≤ 4)
  | .mauCallStart _ fault => decide (fault.toNat ≤ 6)
  | .mauCallEnd _ fault => decide (fault.toNat ≤ 6)
  | .mauClearDone .. | .mauDirectSet .. | .mauDirectClear .. | .mauRcmdHiWrite .. | .mauDirectDone .. | .mauOpmDataAccess ..
  | .mauAbort .. | .mauAbortTake .. | .mauOos .. | .mauPatchDataWrite .. | .mauPatchLock .. | .sqDoorbell ..
  | .cqDoorbell .. | .descriptorTake .. | .descriptorFetchFail .. | .completionWrite .. | .qpEnSet .. | .qpEnClear ..
  | .queueDrainEnd .. | .activeMaxWrite .. | .budgetPeriodEnd | .msixUnmask .. | .mbxDoorbellGo .. | .mailboxAnswer ..
  | .mailboxTimeout .. | .quiesceSet .. | .quiesceClear .. | .quiesceDone .. | .freezeSet .. | .freezeClear ..
  | .instanceReset .. | .flrBegin .. | .flrComplete .. | .vfEnableClear | .linkDown | .getVersions ..
  | .getIdentity .. | .attest .. | .keyImport .. | .hamperPrepare .. | .hamperSave .. | .hamperRestore ..
  | .getRandom .. | .keyGenerate .. | .keyDestroy .. | .keyInfo .. | .keyRestrict .. => true
  | .keyExport _ records => decide (records.length ≤ 4)
  | .keyPublicLoad .. => true
  | .keySave _ records => decide (records.length ≤ 4)
  | .keyLoad .. | .sweepPassStart | .sweepStep | .bbramRemask | .supShareRead .. | .vaultEnWrite ..
  | .sourceHealthFail .. => true
  | .startupTestPass _ apt => decide (apt.toNat < 965)
  | .sourceRetry .. | .sourceRestart .. | .entropyBlockFormed .. | .drbgInstantiate .. | .drbgReseed .. | .drbgRequest
  | .drbgParity .. | .entStart .. | .swDataRead .. | .swBufferRefill .. | .ivReserveRefill | .digestOpen ..
  | .digestUpdate .. | .digestFinal .. | .digestClose .. | .dgeCxOpen .. | .dgeCxUpdate .. | .dgeCxFinish ..
  | .dgeCxClose .. | .digestJobEnd .. | .digestSwitch .. | .saveEnWrite .. | .dmaGo .. | .dmaPauseSet ..
  | .dmaPauseClear .. | .dmaAbort .. | .dmaPaused .. | .dmaDone .. | .dmaErrorHalt .. | .lcChallenge ..
  | .lcTransition .. | .rawTestTransition .. | .lcRootStepDone | .lcCopyDone | .lcReadbackDone | .debugUnlock ..
  | .powerOn | .perstNAssert | .perstNRelease .. | .devReset .. | .lockstepDisagree | .watchdogExpiry
  | .pllLock | .otpLoad .. | .sramClearDone | .dramTrainingDone .. | .slotSelection | .cardRecovery ..
  | .imageSignatureCheck | .bbramCheck | .mauPatchLoad | .knownAnswerTests .. | .evrRestore .. | .clusterSelfTest ..
  | .readiness | .fwCommit .. | .fwWrite .. | .railGlitch .. | .railSlowExcursion .. | .detectorDisagree ..
  | .tempAlarm .. | .clockFault | .xtalStop => true
  | .tamperInputActive input => decide (input.toNat ≤ 5)
  | .meshBreach .. | .shadowMismatch .. | .holdEnd | .rearm .. | .tmpLevelWrite .. | .tmpLock ..
  | .batteryEnter | .batteryWindow .. | .batteryXtalStop | .vbatLoss | .evidenceMove | .governorEvaluation ..
  | .governorRelease | .powerLimitWrite .. | .vholdSample .. => true
  | .fstatClear block _ => decide (block.toNat < 58)
  | .fforce block _ => decide (block.toNat < 58)
  | .evrRecordWrite .. | .checkpointStart | .checkpointDone .. | .routeReset | .ckptNow | .lgClear
  | .cardDetectChange .. | .cardInitDone .. | .sdWriteBusyEnd .. | .sdTimeout .. | .sdInfo .. | .sdList ..
  | .sdRead .. | .sdWrite .. | .sdLogExport .. | .getId .. | .getStatus .. | .setOffset ..
  | .certLen .. | .readCert .. => true
  | .attestStart _ nonce => nonce.length == 32
  | .attestState .. | .readReport .. | .attestReportReady | .i3cAddressAssign .. => true
  | .registerWrite party _ _ _ _ => partyOk party
  | .registerRead party _ => partyOk party
  | .undefinedInstructionWord .. | .linkTrained .. | .pcieErrorReceived .. | .vfEnableSet .. | .dramTrainingLost .. | .alarmSourceInactive ..
  | .streamFillDone .. | .jtagAccess .. | .mgtUnlistedCode .. => true

end Sys2Proof
end

