-- ==== Sys2Proof/Tests/Slice0.lean ====
section
/-!
SUPPORT. Tests of one command each on small states, and a witness for the hypotheses of every statement.
-/
namespace Sys2Proof.Tests
open Sys2Proof.Machine

set_option Elab.async false

/-! ## Well-formed terms -/

/-- The first engine of the device. -/
def first : EngId := { cl := 0#4, en := 0#5 }

def sr0 : SR := { sd := 3#5, sa := 1#5, sb := 2#5, zero := 0#37 }
def si0 : SI := { sd := 3#5, sa := 1#5, sb := 0#5, zero := 0#5, imm := 0xFFFFFFFF#32 }
def cf0 : CF := { zero := 0#20, t := 0#12, n := 0#20 }
def vv0 : VV :=
  { w := 1#2, pr := false, pm := 0#3, vd := 2#5, va := 4#5, vb := 6#5, vc := 0#5, ss := 0#5, ms := 0#3, zero := 0#2
    imm := 0#16 }
def vm0 : VM :=
  { w := 2#2, pr := false, pm := 0#3, vd := 2#5, sa := 1#5, vi := 0#5, pd := 0#3, nf := 0#2, sc := 0#2, zero := 0#4
    off := 0#20 }
def vp0 : VP := { pd := 1#3, pa := 2#3, pb := 3#3, sd := 0#5, sa := 0#5, zero := 0#33 }
def kp0 : KP := { ts := false, key := 0#2, blk := 0#8, sa := 1#5, sb := 2#5, sc := 0#5, zero := 0#26 }

theorem test_wf_accepts :
    [Instr.add first (.sr sr0), .sub first sr0, .movi first si0, .jmp first cf0, .vadd first vv0, .vld first vm0,
      .pand first vp0, .kld first kp0].all wellFormed = true := by decide

theorem test_wf_refuses_zero_fields :
    [Instr.add first (.sr { sr0 with zero := 1#37 }), .add first (.si { si0 with zero := 1#5 }),
      .sub first { sr0 with zero := 1#37 }, .movi first { si0 with zero := 1#5 }, .jmp first { cf0 with zero := 1#20 },
      .vadd first { vv0 with zero := 1#2 }, .vld first { vm0 with zero := 1#4 }, .pand first { vp0 with zero := 1#33 },
      .kld first { kp0 with zero := 1#26 }].all (fun i => !wellFormed i) = true := by decide

theorem test_wf_refuses_records :
    let r : List HostRead := List.replicate 5 .busError
    [Instr.stagingDone 0#32 .busError r, .mauPlace 0#32 .busError r, .keyExport 0#32 r, .keySave 0#32 r].all
      (fun i => !wellFormed i) = true := by decide

theorem test_wf_refuses_ranges :
    [Instr.mauCallStart 0#5 7#3, .mauCallEnd 0#5 7#3, .tamperInputActive 6#3, .fstatClear 58#6 1#32, .fforce 58#6 1#32,
      .attestStart .i3c (List.replicate 31 0#8), .registerWrite (.tenant 0#8) 0#26 0#32 15#4 .busError,
      .registerRead (.tenant 0#8) 0#26].all (fun i => !wellFormed i) = true := by decide

/-! ## Small states -/

def extent (kind place : Nat) : Resv :=
  { kind := kind, place := place, offset := 0, length := 4096, winStart := 0, winEnd := 0 }

def variant : Variant :=
  { opcode := 0xC0, vflags := 0, entry := 0, pealLen := 100, attEntry := 0, maxAttempts := 1, attLen := 50, resOff := 0
    inMax := 64, outMax := 64, resvs := [extent 1 0, extent 2 1, extent 3 2] }

def peal : Peal :=
  { call := 1, start := 0, len := 100, attempt := false, frame := 0, var := variant, scrubbed := false }

/-- What the loader left on the small engine. -/
def loadedScore : Resident :=
  { index := 0, codeWords := 16, constLen := 0, vec := true, cls := 1, shbufs := [], resvs := variant.resvs }

/-- An engine in beat 0 of its peal, with some operands in its registers. -/
def engine : Engine :=
  { Engine.reset with
    sregs := [(1, 7#64), (2, 5#64)], pregs := [(2, 6#512), (3, 3#512)], vregs := [(4, 9#4096), (6, 3#4096)]
    mode := .run, resident := some loadedScore
    peal := some peal, maskUse := true, outBase := 0x1000 }

/-- The device with that engine first. -/
def running (e : Engine) : State := State.reset.setEng 0 e

/-- A word of a row may be issued: the Bool that a test evaluates. -/
def may (e : Engine) (r : Row) : Bool := e.issuing && (e.refuses r).isNone

theorem may_of (e : Engine) (r : Row) (h : may e r = true) : e.MayIssue r := by
  simp only [may, Bool.and_eq_true, Option.isNone_iff_eq_none] at h
  exact h

/-! ## Scalar and control words -/

/-- The state after one command. -/
def after (c : Instr) (s : State) : State :=
  match exec c s with
  | .next t => t
  | _ => s

def run : State := running engine

/-- A stored byte string read back from DMEM of the first engine. -/
def mem (s : State) (a n : Nat) : Nat := leNat (rdBytes (s.eng 0).dmem a n)

/-! ## Scalar and control words -/

theorem test_addi_sign_extends : ((after (.add first (.si si0)) run).eng 0).sreg 3 = 6#64 := by decide +kernel
theorem test_mulhu_high :
    ((after (.mulhu first sr0) (running { engine with sregs := [(1, 0xFFFFFFFFFFFFFFFF#64), (2, 3#64)] })).eng 0).sreg 3
      = 2#64 := by decide +kernel
theorem test_s0_discards : ((after (.sub first { sr0 with sd := 0#5 }) run).eng 0).sregs = engine.sregs := by
  decide +kernel
theorem test_movhi_keeps_low :
    ((after (.movhi first { si0 with imm := 0x12345678#32 }) run).eng 0).sreg 3 = 0x1234567800000007#64 := by
  decide +kernel
theorem test_store_little_endian :
    rdByte ((after (.sth first { si0 with sd := 0#5, sa := 0#5, sb := 1#5, imm := 0x100#32 })
      (running { engine with sregs := [(1, 0xABCD#64)] })).eng 0).dmem 0x101 = 0xAB#8 := by decide +kernel
theorem test_loop_falls_through :
    let e := { engine with loops := [{ first := 3, last := 0, count := 1 }, { first := 5, last := 0, count := 2 }] }
    let e' := (after (.nopn first { cf0 with n := 1#20 }) (running e)).eng 0
    e'.pc = 5 ∧ e'.loops = [{ first := 5, last := 0, count := 1 }] := by decide +kernel

/-- ScalarArithmetic: both forms, destination s0 too; and a form with bits it must leave 0. -/
theorem wit_scalar_arithmetic :
    engine.MayIssue (scalarRow (.sr sr0) 1) ∧ engine.MayIssue (scalarRow (.sr { sr0 with sd := 0#5 }) 3)
      ∧ engine.MayIssue (scalarRow (.si si0) 1)
      ∧ engine.MayIssue { legal := si0.sb == 0#5 && si0.zero == 0#5, writes := [(.s 31, 1)] }
      ∧ engine.issuing = true ∧ engine.pc < (engine.resident.map (·.codeWords)).getD 0
      ∧ ParityPlace.imem engine.pc ∉ engine.badParity :=
  ⟨may_of _ _ (by decide +kernel), may_of _ _ (by decide +kernel), may_of _ _ (by decide +kernel),
    may_of _ _ (by decide +kernel), by decide, by decide, by decide⟩

/-- The variant of the small engine gives it bank 0 of CSM in local beat 0, where its frame begins at offset 0. -/
theorem wit_scalar_memory :
    let f : SI := { si0 with sa := 0#5, sb := 0#5, imm := 0x1FFF8#32 }
    let c : SI := { f with imm := 0x100000#32 }
    engine.MayIssue (loadRow f 8 engine) ∧ engine.denied 0 (siAddr f engine) 8 8 false = none
      ∧ inDmem (siAddr f engine) 8 = true ∧ engine.dmemBad (siAddr f engine) 8 = false
      ∧ engine.MayIssue (loadRow c 8 engine) ∧ engine.denied 0 (siAddr c engine) 8 8 false = none
      ∧ inDmem (siAddr c engine) 8 = false
      ∧ engine.MayIssue (storeRow { f with sd := 0#5 } engine) ∧ engine.denied 0 (siAddr f engine) 8 8 true = none
      ∧ engine.MayIssue (storeRow { c with sd := 0#5 } engine) ∧ engine.denied 0 (siAddr c engine) 8 8 true = none :=
  ⟨may_of _ _ (by decide +kernel), by decide +kernel, by decide +kernel, by decide +kernel,
    may_of _ _ (by decide +kernel), by decide +kernel, by decide +kernel, may_of _ _ (by decide +kernel),
    by decide +kernel, may_of _ _ (by decide +kernel), by decide +kernel⟩

theorem wit_control_registers :
    (∀ p ∈ [0, 1, 2, 3, 4, 5, 6], ∃ f : SI, f.sa = 0#5 ∧ f.sb = 0#5 ∧ f.zero = 0#5 ∧ f.imm = BitVec.ofNat 32 p
      ∧ engine.MayIssue { legal := true, reads := if p = 2 then [.vl] else [], writes := [(.s f.sd.toNat, 1)] })
    ∧ engine.MayIssue { legal := true, reads := [.s 1], writes := [(.vl, 1)] } :=
  ⟨fun p h => ⟨{ si0 with sa := 0#5, imm := BitVec.ofNat 32 p }, rfl, rfl, rfl, rfl, may_of _ _ (by
    simp only [List.mem_cons, List.not_mem_nil, or_false] at h
    rcases h with h | h | h | h | h | h | h <;> subst h <;> decide +kernel)⟩, may_of _ _ (by decide +kernel)⟩

/-- An engine whose score uses no vector words: no mask generator runs in its beats (R79). -/
def plain : Engine := { engine with resident := engine.resident.map fun r => { r with vec := false } }

theorem wit_control_flow :
    let e := { plain with rets := [3] }
    NotLoopEnd e ∧ e.MayIssue { legal := true, interval := 0xFFFFF }
      ∧ (e.peal = some peal ∧ e.pealEc < 32 * 98 ∧ 98 ≤ peal.len - 2 ∧ e.MayIssue { legal := true, interval := 32 * 98 })
      ∧ e.MayIssue { legal := true, target := some 4095 } ∧ e.rets.length < 4
      ∧ e.MayIssue { legal := true, target := some 3 }
      ∧ e.pc < 1 ∧ e.loops.length < 4
      ∧ e.MayIssue { legal := true, push := some { first := e.pc + 1, last := 1, count := 1 } }
      ∧ e.MayIssue { legal := true } := by
  refine ⟨?_, may_of _ _ (by decide +kernel), ⟨rfl, by decide, by decide, may_of _ _ (by decide +kernel)⟩,
    may_of _ _ (by decide +kernel), by decide, may_of _ _ (by decide +kernel), by decide, by decide,
    may_of _ _ (by decide +kernel), may_of _ _ (by decide +kernel)⟩
  intro x h
  cases h

theorem wit_loop_ends :
    let x : LoopEntry := { first := 0, last := 0, count := 2 }
    let e := { engine with loops := [x] }
    e.loops = x :: [] ∧ x.last = e.pc ∧ 0 < x.count ∧ 1 < x.count ∧ e.MayIssue { legal := true, interval := 1 }
      ∧ (let y := { x with count := 1 }
        ({ e with loops := [y] }).loops = y :: [] ∧ y.last = e.pc ∧ y.count = 1
          ∧ Engine.MayIssue { e with loops := [y] } { legal := true, interval := 1 }) :=
  ⟨rfl, rfl, by decide, by decide, may_of _ _ (by decide +kernel), rfl, rfl, rfl, may_of _ _ (by decide +kernel)⟩

/-! ## Exceptions -/

theorem test_undefined_word :
    let t := after (.undefinedInstructionWord first 0xF000000000000000#64) run
    (t.eng 0).cause = 1 ∧ (t.eng 0).mode = .left ∧ bit32 (t.fault 0).fstat 8 = true := by decide +kernel

theorem wit_words_that_raise :
    (run.eng first.idx).issuing = true ∧ decodeWord first 0xFFF0000000000000#64 = none
      ∧ (run.eng first.idx).pc < ((run.eng first.idx).resident.map (·.codeWords)).getD 0
      ∧ ParityPlace.imem 0 ∉ (run.eng first.idx).badParity
      ∧ (let s := running { engine with pc := 16 }
        (s.eng first.idx).issuing = true
          ∧ ((s.eng first.idx).resident.map (·.codeWords)).getD 0 ≤ (s.eng first.idx).pc) := by decide +kernel

theorem wit_refused_word :
    (run.eng first.idx).issuing = true
      ∧ (run.eng first.idx).refuses { legal := false } = some (.illegalInstr, 8) := by decide +kernel

/-! ## Predicates, compares, vector words -/

theorem test_psetn_count :
    ((after (.psetn first { vp0 with pa := 0#3, pb := 0#3, sa := 1#5 }) run).eng 0).preg 1 = 0x7F#512 := by
  decide +kernel
theorem test_p0_discards : ((after (.pnot first { vp0 with pd := 0#3, pb := 0#3 }) run).eng 0).pregs = engine.pregs := by
  decide +kernel
theorem test_vsub_wraps :
    let e := { engine with vl := 1, vregs := [(2, 0xFFFF0000#4096), (4, 3#4096), (6, 9#4096)] }
    ((after (.vsub first vv0) (running e)).eng 0).vreg 2 = 0xFFFFFFFA#4096 := by decide +kernel

theorem wit_predicates :
    let z : VP := { vp0 with pb := 0#3 }
    engine.MayIssue (predRow vp0 (vp0.sd == 0#5 && vp0.sa == 0#5) [.p 2, .p 3])
      ∧ engine.MayIssue (predRow z (z.pb == 0#3 && z.sd == 0#5 && z.sa == 0#5) [.p 2])
      ∧ (let y : VP := { z with pa := 0#3, sa := 1#5 }
        engine.MayIssue (predRow y (y.pa == 0#3 && y.pb == 0#3 && y.sd == 0#5) [.s 1]))
      ∧ (let y : VP := { z with pd := 0#3, sd := 31#5 }
        engine.MayIssue { legal := y.pd == 0#3 && y.pb == 0#3 && y.sa == 0#5 && y.zero == 0#33, vec := true
                          reads := [.p y.pa.toNat], writes := [(.s y.sd.toNat, 2)] })
      ∧ engine.pc < (engine.resident.map (·.codeWords)).getD 0 ∧ ParityPlace.imem engine.pc ∉ engine.badParity :=
  ⟨may_of _ _ (by decide +kernel), may_of _ _ (by decide +kernel), may_of _ _ (by decide +kernel),
    may_of _ _ (by decide +kernel), by decide, by decide⟩

theorem wit_vector_compares :
    let f : VV := { vv0 with vd := 7#5, pr := true }
    engine.MayIssue { legal := vvFree f && decide (f.vd.toNat < 8) && pairOk f.pr f.w [f.va, f.vb],
                      vec := true, reads := [.vl, .p 0] ++ formRegs f.pr 4 ++ formRegs f.pr 6,
                      writes := [(.p 7, if f.pr then 18 else 10)], holds := [(.vxu, if f.pr then 16 else 8)] } :=
  may_of _ _ (by decide +kernel)

theorem wit_vector_integer :
    let g : VV := { vv0 with vb := 0#5, imm := 3#16, pr := true }
    engine.MayIssue (vxuRow vv0 (vvOnly vv0 [.vd, .va, .vb, .pm]) [vv0.va, vv0.vb] [vv0.vd] 8 10)
      ∧ engine.MayIssue (vxuRow vv0 (vvOnly vv0 [.vd, .va, .vb, .pm]) [vv0.va, vv0.vb] [vv0.vd] 8 12)
      ∧ engine.MayIssue (vxuRow g (vvOnly g [.vd, .va, .imm, .pm]) [g.va] [g.vd] 8 10) :=
  ⟨may_of _ _ (by decide +kernel), may_of _ _ (by decide +kernel), may_of _ _ (by decide +kernel)⟩

theorem wit_vector_moves :
    let ssFirst (r : Row) : Row := { r with reads := .s 1 :: r.reads }
    let b : VV := { vv0 with va := 0#5, vb := 0#5 }
    let c : VV := { b with ss := 1#5 }
    let m : VV := { vv0 with vb := 0#5 }
    let x : VV := { vv0 with vd := 0#5, vb := 0#5, ss := 1#5, imm := 0xFFFF#16 }
    let v : VV := { vv0 with vc := 8#5 }
    engine.MayIssue (ssFirst (vxuRow c (vvOnly c [.vd, .ss, .pm]) [] [c.vd] 8 10))
      ∧ engine.MayIssue (vxuRow m (vvOnly m [.vd, .va, .pm]) [m.va] [m.vd] 8 10)
      ∧ engine.MayIssue (vxuRow b (vvOnly b [.vd, .pm]) [] [b.vd] 8 10)
      ∧ engine.MayIssue { vxuRow x (vvOnly x [.va, .ss, .imm, .pm]) [x.va] [] 8 10 with
                          writes := [(.s 1, formLat x.pr 8 10)] }
      ∧ engine.MayIssue (vxuRow vv0 (vvOnly vv0 [.vd, .va, .vb, .pm]) [vv0.va, vv0.vb] [vv0.vd] 16 20)
      ∧ engine.MayIssue (vxuRow v (vvFree v) [v.va, v.vb, v.vc] [v.vd] 8 12) :=
  ⟨may_of _ _ (by decide +kernel), may_of _ _ (by decide +kernel), may_of _ _ (by decide +kernel),
    may_of _ _ (by decide +kernel), may_of _ _ (by decide +kernel), may_of _ _ (by decide +kernel)⟩

theorem may_iff (e : Engine) (r : Row) : e.MayIssue r ↔ may e r = true :=
  ⟨fun h => by simp [may, h.1, h.2], may_of e r⟩

/-! ## Modular and binary-field words -/

/-- R142: 8,380,417 - 1 = 8,380,416, whose Power2Round high part is 1,023 with low part 0. -/
theorem test_p2r_top :
    let f : VV := { vv0 with w := 2#2, ms := 1#3, vb := 0#5, vc := 8#5 }
    let e := (after (.vp2r first f) (running { engine with vl := 1, vregs := [(4, 8380416#4096)] })).eng 0
    e.vreg 2 = 1023#4096 ∧ e.vreg 8 = 0#4096 := by decide +kernel

/-- R134: VMCENT of q - 1 is -1 in the lane. -/
theorem test_vmcent :
    ((after (.vmcent first { vv0 with vb := 0#5 })
      (running { engine with vl := 1, vregs := [(4, 3328#4096)] })).eng 0).vreg 2 = 0xFFFF#4096 := by decide +kernel

theorem wit_modular :
    let m : VV := { vv0 with vb := 0#5, ss := 1#5 }
    let n : VV := { vv0 with vb := 0#5 }
    engine.modulus vv0.ms vv0.w = some 3329 ∧ 3329 % 2 = 1 ∧ 3329 < 2 ^ widthOf vv0.w
      ∧ engine.MayIssue (modRow vv0 engine (vvFree vv0) [vv0.va, vv0.vb] [vv0.vd] 8 12)
      ∧ engine.modulus m.ms m.w = some 3329
      ∧ (let r := modRow m engine (vvFree m) [m.va] [m.vd] 8 12
        engine.MayIssue { r with reads := .s m.ss.toNat :: r.reads })
      ∧ engine.modulus n.ms n.w = some 3329
      ∧ engine.MayIssue (modRow n engine (vvFree n) [n.va] [n.vd] 8 12) := by
  simp only [may_iff]; decide +kernel

theorem wit_compression :
    let f : VV := { vv0 with vb := 0#5, imm := 15#16 }
    engine.modulus f.ms f.w = some 3329 ∧ 1 ≤ f.imm.toNat ∧ f.imm.toNat < 32 ∧ f.imm.toNat < widthOf f.w
      ∧ engine.MayIssue (modRow f engine (vvFree f) [f.va] [f.vd] 8 12) := by
  simp only [may_iff]; decide +kernel

/-- A modulus descriptor of 3329 in 16-bit lanes and a field descriptor of X^16 + X^5 + X^3 + X + 1. -/
theorem wit_slot_setup :
    let f : VV := { vv0 with w := 0#2, vd := 0#5, va := 0#5, vb := 0#5, ms := 4#3 }
    let row (l : Loc) : Row := { legal := true, vec := true, reads := [.s 0], writes := [(l, 20)], holds := [(.lsp, 1)] }
    let e := { engine with dmem := wrBytes [] 0 [0x01#8, 0x0D#8, 0#8, 0#8, 0#8, 0#8, 0#8, 0#8, 1#8] }
    let g := { engine with dmem := wrBytes [] 0 [0x2B#8, 0#8, 1#8] }
    vvFree f = true ∧ descAddr f e % 64 = 0 ∧ descAddr f e + 64 ≤ 0x20000
      ∧ e.dmemBad (descAddr f e) 64 = false
      ∧ leAt (rdBytes e.dmem 0 64) 0 8 = 3329 ∧ leAt (rdBytes e.dmem 0 64) 8 1 = 1 ∧ 3329 < 2 ^ (8 * 2 ^ 1 - 1)
      ∧ (∀ x ∈ (rdBytes e.dmem 0 64).drop 9, x = 0#8) ∧ e.MayIssue (row (.q 0))
      ∧ leAt (rdBytes g.dmem 0 64) 0 4 = 0x1002B ∧ polyDeg 0x1002B 32 = 16
      ∧ (∀ x ∈ (rdBytes g.dmem 0 64).drop 4, x = 0#8) ∧ g.MayIssue (row (.g 0)) := by
  simp only [may_iff]; decide +kernel

theorem wit_butterflies :
    let f : VV := { vv0 with imm := 7#16 }
    engine.modulus f.ms f.w = some 3329
      ∧ engine.MayIssue (modRow f engine (vvFree f && decide (f.imm.toNat < 16)
        && decide (2 * bfDist f ≤ countOf (widthOf f.w) f.pr)) [f.va, f.vb] [f.vd] 8 12) := by
  simp only [may_iff]; decide +kernel

theorem wit_cross_butterflies :
    let g : VV := { vv0 with vc := 8#5 }
    engine.modulus vv0.ms vv0.w = some 3329
      ∧ engine.MayIssue (modRow vv0 engine (vvFree vv0 && vv0.vd != vv0.va)
        [vv0.vd, vv0.va, vv0.vb] [vv0.vd, vv0.va] 8 12)
      ∧ engine.modulus g.ms g.w = some 3329
      ∧ engine.MayIssue (modRow g engine (vvFree g) [g.va, g.vb, g.vc] [g.vd] 16 20) := by
  simp only [may_iff]; decide +kernel

theorem wit_binary_field :
    let e := { engine with gslots := [(0, some 0x1002B)] }
    let f : VV := { vv0 with ms := 4#3 }
    let g : VV := { f with vb := 0#5 }
    let c : VV := { vv0 with w := 3#2 }
    e.field f = some (0x1002B, 16)
      ∧ e.MayIssue (gfRow f e (vvFree f) [f.va, f.vb] 8 12)
      ∧ e.field g = some (0x1002B, 16) ∧ e.MayIssue (gfRow g e (vvFree g) [g.va] 8 12)
      ∧ e.MayIssue (gfRow g e (vvFree g) [g.va] 64 68) ∧ e.MayIssue (clRow c) := by
  simp only [may_iff]; decide +kernel

theorem wit_pack_and_split :
    let f : VV := { vv0 with vb := 0#5, imm := 16#16 }
    let r : VV := { vv0 with w := 2#2, ms := 1#3, vb := 0#5, vc := 8#5 }
    let d : VV := { r with imm := 1#16 }
    engine.MayIssue (vxuRow f (packLegal f) [f.va] [f.vd] 8 12)
      ∧ engine.MayIssue (modRow r engine (vvFree r && r.ms == 1#3 && r.w == 2#2 && r.vd != r.vc)
        [r.va] [r.vd, r.vc] 8 12)
      ∧ engine.MayIssue (modRow d engine (vvFree d && d.ms == 1#3 && d.w == 2#2 && d.vd != d.vc
        && decide (d.imm.toNat ≤ 1)) [d.va] [d.vd, d.vc] 8 12) := by
  simp only [may_iff]; decide +kernel

/-! ## Vector memory -/

theorem test_vldff_trims :
    let f : VM := { vm0 with pd := 1#3, sa := 1#5 }
    let e := (after (.vldff first f) (running { engine with sregs := [(1, 0x1FFF8#64)] })).eng 0
    e.vl = 2 ∧ e.preg 1 = 3#512 := by decide +kernel

/-- The vector blocks of DMEM, and of the engine's frame of bank 0 in CSM. -/
theorem wit_vector_blocks :
    let f : VM := { vm0 with sa := 0#5, off := 0x1FE00#20 }
    let p : VM := { vm0 with sa := 0#5, pr := true }
    let e := { engine with sregs := [(1, 0x100000#64)] }
    engine.MayIssue (blockRow f true engine) ∧ blockDenied f engine 0 (vmBase f engine) false = none
      ∧ inDmem (vmBase f engine) 512 = true ∧ engine.dmemBad (vmBase f engine) 512 = false
      ∧ engine.MayIssue (blockRow f false engine) ∧ blockDenied f engine 0 (vmBase f engine) true = none
      ∧ engine.MayIssue (blockRow p true engine) ∧ blockDenied p engine 0 (vmBase p engine) false = none
      ∧ inDmem (vmBase p engine) 1024 = true
      ∧ e.MayIssue (blockRow vm0 true e) ∧ blockDenied vm0 e 0 (vmBase vm0 e) false = none
      ∧ inDmem (vmBase vm0 e) 512 = false
      ∧ e.MayIssue (blockRow vm0 false e) ∧ blockDenied vm0 e 0 (vmBase vm0 e) true = none := by
  simp only [may_iff]; decide +kernel

theorem wit_first_fault_load :
    let f : VM := { vm0 with pd := 1#3 }
    let e := { engine with sregs := [(1, 0x1FFF8#64)] }
    let bad (i : Nat) : Prop := e.dmemDenied (vmBase f e + i * vmBytes f) (vmBytes f) (vmBytes f) false ≠ none
    e.MayIssue { legal := vmZero f && f.nf == 0#2 && f.sc == 0#2 && f.pm == 0#3 && f.pd != 0#3
                   && pairOk f.pr f.w [f.vd]
                 vec := true
                 reads := [.vl, .s f.sa.toNat]
                 writes := [(.vl, formLat f.pr 8 9), (.p f.pd.toNat, formLat f.pr 8 9)]
                   ++ (formRegs f.pr f.vd.toNat).map (fun l => (l, formLat f.pr 8 9))
                 holds := [(.lsp, formOcc f.pr 8)] }
      ∧ e.dmemBad (vmBase f e) (e.limit 32 false * vmBytes f) = false ∧ 2 ≤ e.limit 32 false
      ∧ (∀ i, i < 2 → ¬ bad i) ∧ (2 < e.limit 32 false → bad 2) ∧ 0 < 2 := by
  simp only [may_iff]; decide +kernel

/-- With the index lanes 0 every element of the small engine gathers from one address. -/
theorem wit_gathers :
    let f : VM := { vm0 with vi := 8#5, sa := 0#5 }
    let g : VM := { vm0 with nf := 3#2, sa := 0#5, vd := 28#5 }
    let e := { engine with vl := 2 }
    e.MayIssue (gsRow f true e) ∧ e.MayIssue (structRow g true e)
      ∧ e.MayIssue (gsRow f false e) ∧ e.MayIssue (structRow g false e) ∧ fromEri e (vmActive f e) 1 = true
      ∧ (∀ i, i < 2 → fromEri e (vmActive f e) i = true →
        e.dmemDenied (gsAddr f e i) (vmBytes f) (vmBytes f) false = none
          ∧ e.dmemDenied (gsAddr f e i) (vmBytes f) (vmBytes f) true = none ∧ e.dmemBad (gsAddr f e i) (vmBytes f) = false)
      ∧ (∀ i, i < 2 → fromEri e (vmActive g e) i = true → structBad g e false i = none ∧ structBad g e true i = none
        ∧ e.dmemBad (structAddr g e i 0) (structFields g * vmBytes g) = false) := by
  simp only [may_iff]; decide +kernel

/-- No element at or above the limit is active, so the bound of the witness above loses nothing. -/
theorem wit_gathers_bound (i : Nat) (h : 2 ≤ i) :
    fromEri { engine with vl := 2 } (vmActive vm0 { engine with vl := 2 }) i = false := by
  have : ¬ i < 2 := by omega
  simp [fromEri, vmActive, Engine.active, Engine.limit, countOf, widthOf, vm0]
  omega

/-! ## Share, Keccak, sampling and key-port words -/

/-- A masked group of two shares at registers 2 and 3, 4 and 5, 6 and 7. -/
def sh0 : VV := { vv0 with imm := 1#16 }

theorem wit_share_by_share :
    let row2 (f : VV) : Row := shRow f (shLegal f [.vd, .va, .vb] [f.vd, f.va, f.vb] [] && true)
      (slotReads f.ms ++ shGroup f f.va ++ shGroup f f.vb) (shGroup f f.vd) (16, 24) (20, 28) (0, 0)
    let rowP (f : VV) (occ lat : Nat × Nat) : Row := shRow f (shLegal f [.vd, .va, .vb] [f.vd, f.va] [f.vb] && true)
      (slotReads f.ms ++ shGroup f f.va ++ formRegs f.pr f.vb.toNat) (shGroup f f.vd) occ lat (0, 0)
    let d2 : VV := { vv0 with vd := 27#5, va := 3#5, vb := 6#5, imm := 6#16 }
    shMod sh0 engine = some 3329 ∧ engine.MayIssue (row2 sh0) ∧ engine.MayIssue (rowP sh0 (8, 8) (12, 12))
      ∧ shMod d2 engine = some 65536 ∧ engine.MayIssue (row2 d2)
      ∧ shP2 sh0 = false ∧ sh0.ms = 0#3
      ∧ engine.modulus sh0.ms sh0.w = some 3329 ∧ engine.MayIssue (rowP sh0 (16, 24) (20, 28)) := by
  simp only [may_iff]; decide +kernel

theorem refuses_draw (e : Engine) (r : Row) (hu : e.maskUse = true) (hr : ∀ n, e.mrgRepeats e.pealEc n = false) :
    e.refuses r = e.refuses { r with draw := 0 } := by
  unfold Engine.refuses
  simp only [hu, Bool.not_true, Bool.and_false, hr]
  rfl

/-- A word that draws may be issued where the mask generator does not repeat itself: its output is uninterpreted, so that
is a premise here (R82). -/
theorem wit_fresh_shares (h : ∀ n, engine.mrgRepeats 0 n = false) :
    let f : VV := { sh0 with vb := 0#5 }
    let m : VV := { vv0 with va := 0#5, vb := 0#5 }
    let c : VV := { sh0 with vc := 8#5 }
    let q : VV := { f with w := 2#2, ms := 1#3 }
    (let r := vxuRow m (vvOnly m [.vd, .pm]) [] [m.vd] 8 10
     engine.MayIssue { r with draw := formOcc m.pr 8, holds := (.mrg, formOcc m.pr 8) :: r.holds })
      ∧ engine.MayIssue (shRow sh0 (shLegal sh0 [.vd, .va, .vb] [sh0.vd, sh0.va, sh0.vb] [])
        (shGroup sh0 sh0.va ++ shGroup sh0 sh0.vb) (shGroup sh0 sh0.vd) (24, 56) (28, 60) (8, 24))
      ∧ engine.MayIssue (shRow f (shLegal f [.vd, .va] [f.vd, f.va] []) (shGroup f f.va) (shGroup f f.vd) (16, 24) (20, 28)
        (8, 16))
      ∧ engine.MayIssue (shRow f (shLegal f [.vd, .va] [f.vd] [f.va]) (formRegs f.pr f.va.toNat) (shGroup f f.vd) (16, 24)
        (20, 28) (8, 16))
      ∧ engine.MayIssue (shRow c (shLegal c [.vd, .va, .vb, .vc] [c.vd, c.va, c.vb, c.vc] [])
        (shGroup c c.va ++ shGroup c c.vb ++ shGroup c c.vc) (shGroup c c.vd) (48, 112) (52, 116) (16, 48))
      ∧ engine.MayIssue (shRow f (shLegal f [.vd, .va] [f.va] [f.vd]) (shGroup f f.va) (formRegs f.pr f.vd.toNat) (24, 40)
        (28, 44) (8, 16))
      ∧ shMod q engine = some 8380417 ∧ 8380417 ≤ 2 ^ widthOf q.w
      ∧ engine.MayIssue (shRow q (shLegal q [.vd, .va] [q.vd, q.va] []) (slotReads q.ms ++ shGroup q q.va) (shGroup q q.vd)
        (sb2aOcc q) ((sb2aOcc q).1 + 4, (sb2aOcc q).2 + 4) (8, 32))
      ∧ engine.MayIssue (shRow q (sa2bLegal q) (slotReads q.ms ++ shGroup q q.va) (shGroup q q.vd)
        (sa2bOcc q) ((sa2bOcc q).1 + 4, (sa2bOcc q).2 + 4) ((sa2bOcc q).1 / 2, (sa2bOcc q).2 / 2)) := by
  have go (r : Row) (hl : may engine { r with draw := 0 } = true) : engine.MayIssue r :=
    ⟨rfl, (refuses_draw engine r rfl h).trans (may_of _ _ hl).2⟩
  refine ⟨go _ ?_, go _ ?_, go _ ?_, go _ ?_, go _ ?_, go _ ?_, ?_, ?_, go _ ?_, go _ ?_⟩ <;> decide +kernel

theorem wit_keccak_unit :
    let z : VV := { vv0 with w := 0#2, vd := 0#5, va := 0#5, vb := 0#5 }
    let a : VV := { z with va := 4#5, imm := 0x2770#16 }
    let q : VV := { z with vd := 2#5, imm := 200#16 }
    let m : VV := { z with imm := 64#16 }
    engine.kcuUpset = none
      ∧ engine.MayIssue { legal := kcLegal z [], vec := true, writes := (kcuLocs 0).map fun l => (l, 1), holds := [(.kcu, 1)] }
      ∧ engine.MayIssue { legal := kcLegal a [.va, .imm] && kRangeOk a && groupOk 0 false a.va, vec := true
                          reads := kcuLocs 0 ++ groupRegs 0 false a.va.toNat
                          writes := (kcuLocs 0).map fun l => (l, kOcc a), holds := [(.kcu, kOcc a)] }
      ∧ engine.MayIssue { legal := kcLegal z [], vec := true, draw := 0, reads := kcuLocs 0
                          writes := (kcuLocs 0).map fun l => (l, 12), holds := [(.kcu, 12)] }
      ∧ engine.MayIssue { legal := kcLegal q [.vd, .imm] && kRangeOk q && groupOk 0 false q.vd, vec := true
                          reads := kcuLocs 0, writes := (groupRegs 0 false q.vd.toNat).map fun l => (l, kOcc q + 2)
                          holds := [(.kcu, kOcc q)] }
      ∧ engine.MayIssue (kMemRow m true engine) ∧ engine.dmemDenied (descAddr m engine) 256 64 true = none
      ∧ engine.MayIssue (kMemRow m false engine) ∧ engine.dmemDenied (descAddr m engine) 256 64 false = none
      ∧ engine.dmemBad (descAddr m engine) 200 = false := by
  simp only [may_iff]; decide +kernel

theorem wit_samplers :
    let c : VV := { vv0 with w := 0#2, vb := 0#5, imm := 3#16 }
    let r : VV := { c with ss := 1#5, imm := 198#16 }
    engine.MayIssue { legal := kcLegal c [.vd, .va, .imm, .pm] && (c.imm.toNat == 2 || c.imm.toNat == 3)
                        && groupOk 0 false c.vd && groupOk 0 false c.va
                      vec := true, draw := 0, reads := [.vl, .p c.pm.toNat] ++ groupRegs 0 false c.va.toNat
                      writes := (groupRegs 0 false c.vd.toNat).map fun l => (l, 12), holds := [(.vxu, 8)] }
      ∧ engine.MayIssue { legal := kcLegal r [.vd, .va, .ss, .ms, .imm] && r.w == 0#2 && decide (r.ms.toNat ≤ 2)
                            && decide (1 ≤ r.imm.toNat) && decide (r.imm.toNat ≤ 200) && decide (r.imm.toNat % 3 = 0)
                          vec := true, reads := .s r.ss.toNat :: formRegs false r.va.toNat
                          writes := (.s r.ss.toNat, 20) :: (formRegs false r.vd.toNat).map fun l => (l, 20)
                          holds := [(.vxu, 16)] } := by
  simp only [may_iff]; decide +kernel

/-- An engine with a key-share buffer of two planes, its call's input key in the key port. -/
def keyEngine : Engine :=
  { engine with
    sregs := [(1, 0x1000#64), (2, 0x2000#64)]
    resident := some { loadedScore with shbufs := [{ base := 0x1000, planeLen := 0x1000, stride := 0x1000, layout := 0x70 }] }
    peal := some { peal with var := { variant with resvs := [{ extent 6 0 with length := 1 }] } } }

/-- A key of one byte in the key port. -/
def portKey : KpKey :=
  { call := 1, engine := 0, out := false, num := 0, len := 32, share0 := [1#8], share1 := [2#8], masters := 3
    exportable := false, orphan := false, bad := false }

def keyState (k : KpKey) : State := (running keyEngine).setCl 0 { Cluster.reset with kpb := [k] }

theorem test_kld_delivers : mem (after (.kld first kp0) (keyState portKey)) 0x1000 512 = 1 := by decide +kernel
theorem test_kld_denied :
    let t := after (.kld first kp0) (keyState { portKey with masters := 2 })
    (t.eng 0).keyDenied = some 5 ∧ mem t 0x1000 512 = 0 := by
  decide +kernel

theorem wit_key_port :
    keyEngine.MayIssue (kpRow kp0 true keyEngine) ∧ kpDenied kp0 keyEngine 0 true = none
      ∧ ((keyState portKey).cl 0).inKey 1 0 1 = none
      ∧ (∀ k : KpKey, k.call = 1 → k.engine = 0 → k.out = false → k.num = 0 → ((keyState k).cl 0).inKey 1 0 0 = some k)
      ∧ kldRefused keyEngine { portKey with masters := 2 } = true
      ∧ kldRefused keyEngine portKey = false ∧ kldRefused keyEngine { portKey with bad := true } = false
      ∧ keyEngine.MayIssue (kpRow kp0 false keyEngine) ∧ kpDenied kp0 keyEngine 0 false = none
      ∧ (∀ j, j < kpShares kp0 → keyEngine.dmemBad (kpAddr kp0 keyEngine j) 512 = false) ∧ keyEngine.hasOutKey 0 = true
      ∧ (((keyState { portKey with out := true }).cl 0).outKey 1 0 0).masters.testBit (classBit 1) = true := by
  simp only [may_iff]
  refine ⟨by decide +kernel, by decide +kernel, by decide +kernel, ?_, by decide +kernel, by decide +kernel, by decide +kernel,
    by decide +kernel, by decide +kernel, by decide +kernel, by decide +kernel, by decide +kernel⟩
  intro k h1 h2 h3 h4
  cases k
  simp only at h1 h2 h3 h4
  subst h1 h2 h3 h4
  rfl

/-! ## Score library -/

/-- A descriptor with some bytes set. -/
def desc (l : List (Nat × Byte)) : Bytes := (List.range 64).map fun i => ((l.find? fun p => p.1 == i).map (·.2)).getD 0#8

/-- A call of instance 1 and queue 0 as its descriptor is taken. -/
def call (l : List (Nat × Byte)) : Call := newCall 1 0 0#16 (desc l) 0 0 0

def calls (s : State) (l : List (Nat × Option Call)) : State := { s with sch := { s.sch with calls := l } }

/-- An input key of call 1 in the key port of the first cluster. -/
def inKey (n : Nat) (b : Bytes) : KpKey :=
  { portKey with num := n, len := b.length, share0 := b, share1 := [] }

def servedCall (op : Byte) (l : List (Nat × Byte)) (input : Bytes) (q : Option Nat) : Call :=
  { call ((0, op) :: l) with st := .inPeal, input := input, qIndex := q }

/-- The first engine runs a peal of call 1, which has an opcode, further descriptor bytes, an input and input keys. -/
def serving (op : Byte) (l : List (Nat × Byte)) (input : Bytes) (q : Option Nat) (keys : List (Nat × Bytes)) : State :=
  (calls run [(1, some (servedCall op l input q))]).setCl 0
    { Cluster.reset with kpb := keys.map fun k => inKey k.1 k.2 }

theorem serving_serves (op : Byte) (l : List (Nat × Byte)) (input : Bytes) (q : Option Nat) (keys : List (Nat × Bytes)) :
    (good : (serving op l input q keys).kldBad first.idx 1 = false) →
      Serving first (serving op l input q keys) peal (servedCall op l input q) :=
  fun good => ⟨rfl, rfl, rfl, rfl, good⟩

/-- LibraryMakes: for every opcode byte a state serves a call of it, in a single peal; and a chain's accepting attempt. -/
theorem wit_library_makes (op : Byte) :
    Serving first (serving op [] [] none []) peal (servedCall op [] [] none)
      ∧ (servedCall op [] [] none).opcode = op.toNat ∧ peal.var.chain = false
      ∧ ∀ n, max 1 n ≤ { servedCall op [] [] none with attempt := n + 1 }.attempt := by
  refine ⟨serving_serves _ _ _ _ _ rfl, rfl, rfl, fun n => ?_⟩
  simp only
  omega

/-- What the score of a small serving state reads. -/
def lib (op : Byte) (l : List (Nat × Byte)) (input : Bytes) (q : Option Nat) (keys : List (Nat × Bytes)) : LibIn :=
  (serving op l input q keys).libIn first.idx (servedCall op l input q) 1

/-- The exchanges and the signature with a tree rest on uninterpreted functions: a shared secret that is not all zero, a
path that is the leaf's. -/
theorem wit_library_decides :
    (servedCall 0x03#8 [(28, 1#8)] [] none).keyHandle 0 ≠ 0
      ∧ (let r := contRecord false 11 1 (List.replicate 64 5#8) false []
        let x := lib 0x66#8 [] [] none [(0, List.replicate 128 5#8), (1, r)]
        contBad false 11 (slhParts 11).length (x.key 1) (some (slhPkOf (x.key 0) 11)) = false ∧ x.c.opcode = 0x50 + 2 * 11)
      ∧ (let x := lib 0x51#8 [] [] none [(1, contRecord true 0 0 [] false [])]
        x.c.opcode = 0x51 ∧ contBad true 0 (slhParts 0).length (x.key 1)
          (if x.c.keyHandle 0 = 0 then none else some (x.key 0)) = false)
      ∧ (∀ z priv peer, allZero (padTo (xLen z) (xShared z priv peer)) = false → (xSecret z priv peer).isSome = true)
      ∧ modulusOk ((List.replicate 35 0#8).take (mlKem 0x07).ek) = true
      ∧ (let e := treeEntry 0x6B 5 32 1 0 [] [] [] [] []
        let x := lib 0x6B#8 [] [] (some 31) [(0, e)]
        indexOk x.c.qIndex (leAt (x.key 0) 2 1) = true ∧ x.c.opcode = 0x6B) := by
  refine ⟨by decide +kernel, by decide +kernel, by decide +kernel, ?_, by decide +kernel, by decide +kernel⟩
  intro z priv peer h
  simp [xSecret, h]

theorem wit_library_procedures :
    (let c := servedCall 0x68#8 [(55, 5#8), (59, 3#8), (60, 4#8)] [] none
     c.opcode = 0x68 ∧ c.tree = some (0x6C, 5, 32) ∧ c.keyHandle 0 = 0)
      ∧ (let x := lib 0x69#8 [] [] none [(1, treeJob 0x68 0x6B 10 24 1 false 0 [] [] [] [] 1)]
        x.c.opcode = 0x69 ∧ jobBad x (x.c.opcode - 1) = false ∧ leAt (x.key 1) 32 4 < treeSteps (leAt (x.key 1) 3 1))
      ∧ (let x := lib 0x6A#8 [] [] none [(1, treeJob 0x68 0x6B 10 24 1 false 0 [] [] [] [] 2)]
        x.c.opcode = 0x6A ∧ jobBad x (x.c.opcode - 2) = false ∧ leAt (x.key 1) 32 4 = treeSteps (leAt (x.key 1) 3 1)
          ∧ leAt (x.key 1) 6 1 = 0 ∧ x.c.keyHandle 0 = 0)
      ∧ (let x := lib 0x91#8 [(28, 1#8)] [] none [(0, mceGoppaRec [7#8] []), (1, mceJob 0 [7#8] (1, 0, 0))]
        x.c.opcode = 0x91 ∧ isJob (x.key 1) = true ∧ (mceJobStep (x.key 1)).1 = 1 ∧ isGoppa (x.key 1) (x.key 0) = true
          ∧ x.c.keyHandle 0 ≠ 0 ∧ x.c.keyHandle 2 = 0 ∧ x.c.keyHandle 3 = 0)
      ∧ (let x := lib 0x92#8 [] [] none [(0, mceGoppaRec [7#8] []), (1, mceJob 0 [7#8] (4, 0, 0))]
        x.c.opcode = 0x92 ∧ isJob (x.key 1) = true ∧ (mceJobStep (x.key 1)).1 = 4 ∧ isGoppa (x.key 1) (x.key 0) = true)
      ∧ (let x := lib 0x93#8 [(52, 108#8)] [] none [(1, mceJob 0 [7#8] (4, 0, 0)), (2, mcePanel [7#8] 108 24 false [])]
        let t := leAt x.c.param 0 2
        let done := decide (t < mcePivots 0)
        x.c.opcode = 0x93 ∧ isJob (x.key 1) = true ∧ (mceJobStep (x.key 1)).1 = 4 ∧ mceJobSet (x.key 1) = 0
          ∧ mceMt 0 / 32 ≤ t ∧ t < mcePanels 0
          ∧ isPanel (x.key 1) (x.key 2) t (if done then t + 1 else mcePivots 0) done = true)
      ∧ (let x := lib 0x95#8 [(54, 1#8)] [] none [(1, (mceEncJob 0 [] [] 2).take 467)]
        x.c.opcode = 0x95 ∧ isEncJob (x.key 1) = true ∧ leAt x.c.param 0 2 + leAt x.c.param 2 2 ≤ mceMt (leAt (x.key 1) 1 1)
          ∧ Nat.land ((2 ^ leAt x.c.param 2 2 - 1) * 2 ^ leAt x.c.param 0 2) (mceCovered (x.key 1)) = 0)
      ∧ (let x := lib 0x96#8 [] [] none [(1, (mceEncJob 0 [] [] (2 ^ mceMt 0 - 1)).take 562)]
        x.c.opcode = 0x96 ∧ isEncJob (x.key 1) = true ∧ mceCovered (x.key 1) = 2 ^ mceMt 0 - 1)
      ∧ 0xC0 ≤ (servedCall 0xFF#8 [] [] none).opcode := by
  decide +kernel

/-- The score of a key derivation reports no output and leaves the engine at END. -/
theorem test_user_score_result :
    let t := after (.userScoreCall first [9#8] 0#8 1#8 none none) (serving 0xC0#8 [] [] none [])
    (t.eng 0).mode = .ended ∧ rdByte (t.cl 0).csm 0x80000 = 1#8 ∧ rdByte (t.cl 0).csm 0x80005 = 1#8 := by decide +kernel

/-! ## Scores, admission, peals -/

/-- The device in service, with nothing loaded. -/
def ready : State := { State.reset with boot := { Boot.reset with perst := false, ready := true } }

def score : Score :=
  { cls := 2, flags := 0, scoreId := 1, version := 1, codeWords := 2, const4k := 0, stagger := 3, variants := [variant]
    shbufs := [], code := natLe 8 5 ++ natLe 8 6, consts := [], any := true, owner := 0, resvs := variant.resvs }

/-- An idle engine that holds the score. -/
def idleEngine : Engine :=
  { Engine.reset with resident := some { loadedScore with codeWords := 2, vec := false, cls := 2 } }

/-- A ready device with the score in its store and on its first engine, admission on. -/
def loaded : State :=
  let s := (({ ready with sch := { ready.sch with store := [(0, some score)] } }).setEng 0 idleEngine).setReg 0x100004 1#32
  [0, 15].foldl (fun s c => s.setCl c { Cluster.reset with selftest := 0 }) (s.setReg 0x100104 8#32)

theorem test_load_done :
    let t := after (.engineLoadDone 0#4) (loaded.setEng 1 { Engine.reset with loading := some { index := some 0 } })
    mget (fun _ => 0#64) (t.eng 1).imem 1 = 6#64 ∧ (t.eng 1).resident.map (·.codeWords) = some 2 := by decide +kernel

theorem wit_score_store :
    ready.boot.ready = true ∧ ready.sch.fetched = none
      ∧ (let s := { ready with sch := { ready.sch with fetched := some (some []) } }
        s.sch.fetched = some (some []) ∧ ∃ r, s.verifyScore [] (s.reg 0x100028).toNat (bit32 (s.reg 0x10002C) 16)
          (fld (s.reg 0x10002C) 8 8) = (r, none))
      ∧ loaded.boot.ready = true ∧ loaded.sch.fetched = none ∧ fld 63#32 0 7 < 64
      ∧ loaded.sch.placing = none ∧ loaded.score 0 ≠ none ∧ loaded.score (fld 1#32 0 7) = none
      ∧ (loaded.cl (fld 0xF0000#32 16 4)).inService = true
      ∧ ((loaded.setCl 15 { Cluster.reset with oos := true }).cl 15).inService = false
      ∧ (let s := (loaded.setEng 31 { Engine.reset with loading := some { index := some 0 } }).setEng 1
          { Engine.reset with loading := some { index := none } }
        (s.eng 31).wants = some (some 0) ∧ (s.eng 1).wants = some none ∧ (s.eng 0).wants = none
          ∧ ∀ n, n < 32 → (s.eng n).wants.isSome = true → s.loadBlocked n = false) := by
  refine ⟨by decide, by decide, ⟨rfl, _, rfl⟩, ?_⟩
  decide +kernel

/-- A call of the small score, in a state of its life. -/
def pooled (st : CallSt) : Call :=
  { call [(0, 0xC0#8)] with
    st := st, seq := 1, var := some variant, stagger := 3
    place := if st = .pool then [] else [{ unit := 0, frame := 0, start := 64, res := none }] }

theorem wit_admission :
    let s := calls loaded [(1, some (pooled .pool))]
    bit32 (s.reg 0x100004) 0 = true ∧ s.alarm = false
      ∧ (s.allCalls.any fun e => e.2.st == .pool && s.exhausted e.2) = false
      ∧ (s.sch.admitBeat = s.g → s.sch.admitCount < 4) ∧ s.pickCall.isSome = true := by decide +kernel

theorem wit_staging :
    let s : State := { calls loaded [(1, some (pooled .staging))] with ent := { Ent.reset with mode := .halted } }
    let c := pooled .staging
    s.call 1 = some c ∧ c.st = .staging ∧ c.var = some variant ∧ recParity (.ok []) = false
      ∧ ∃ b rand tag s1 s2 s3 s4, s.readInput c (.ok []) = (some b, s1) ∧ s1.deliverHalves 1 c variant [] c.place = (none, s2)
        ∧ s2.drawRand c variant = some (rand, s3) ∧ s3.drawTag c = some (tag, s4) :=
  ⟨rfl, rfl, rfl, rfl, _, _, _, _, _, _, _, rfl, rfl, rfl, rfl⟩

/-- A start beat one global beat after staging ended: the last that slips. -/
theorem wit_start_slip :
    let c := { pooled .staged with stagedG := 63 }
    let s := calls loaded [(1, some c)]
    s.call 1 = some c ∧ c.st = .staged ∧ c.place = [{ unit := 0, frame := 0, start := 64, res := none }]
      ∧ (s.cl 0).globalOf 64 < c.stagedG + 2 := by decide +kernel

/-- A stream extent of the small variant, as its fourth reservation. -/
def streamVar : Variant := { variant with resvs := variant.resvs ++ [{ extent 4 3 with winEnd := 50 }] }

theorem wit_streams :
    let c := { pooled .inPeal with var := some streamVar }
    let s := (calls loaded [(1, some c)]).setEng 0 { engine with peal := some { peal with var := streamVar } }
    s.call 1 = some c ∧ c.st = .inPeal ∧ c.var = some streamVar
      ∧ (∃ r, streamVar.resvs[3]? = some r ∧ r.kind = 4 ∧ 3 ∉ c.streams ∧ s.windowOpen c r = true
        ∧ s.windowOk c.inst (c.inAddr + streamVar.streamOff 3) (min r.length (c.inLen - streamVar.streamOff 3)) false = true)
      ∧ (∃ p r, (s.eng 0).peal = some p ∧ s.call p.call = some c ∧ p.var.resvs[3]? = some r ∧ r.kind = 4 ∧ p.attempt = false
        ∧ 3 ∉ c.streams ∧ p.scrubbed = false ∧ (s.eng 0).leave = none) := by
  refine ⟨by decide +kernel, rfl, rfl, ⟨_, rfl, by decide +kernel⟩, ⟨_, _, rfl, by decide +kernel, rfl, rfl, rfl, by decide, rfl, rfl⟩⟩

/-- An engine at its start beat, after its peal's last word, and at its release beat; and a completion on its way. -/
theorem wit_peal_beats :
    (let c := pooled .staged
      let s := calls loaded [(1, some c)]
      s.nextOn first.idx = some (1, c, { unit := 0, frame := 0, start := 64, res := none }) ∧ c.var = some variant
        ∧ (s.eng 0).mode = .idle ∧ (s.eng 0).peal = none ∧ (s.eng 0).needReload = false
        ∧ ((s.eng 0).resident.map (·.vec)).getD false = false ∧ c.stagedG + 2 ≤ (s.cl 0).globalOf 64)
      ∧ (run.eng first.idx).peal = some peal ∧ peal.scrubbed = false ∧ (run.eng first.idx).mode = .run
      ∧ run.haltsOnExc first.idx = false
      ∧ (let p := { peal with scrubbed := true }
        let c := pooled .inPeal
        let s := (calls loaded [(1, some c)]).setEng 0 { engine with mode := .ended, peal := some p }
        (s.eng first.idx).peal = some p ∧ p.scrubbed = true ∧ s.call p.call = some c
          ∧ c.place = [{ unit := 0, frame := 0, start := 64, res := none }] ∧ c.okeys = [] ∧ c.counter = none)
      ∧ (let c := { pooled .released with inFifo := true }
        let s := (calls loaded [(1, some c)]).setCl 15 { Cluster.reset with fifo := [1, 2] }
        s.call 1 = some c ∧ c.pushed = false ∧ s.heldBack c = false ∧ isMauOp c.opcode = false
          ∧ (s.inst c.inst).st ≠ .inFlr ∧ s.windowOk c.inst c.outAddr (s.outBytes c).length true = true
          ∧ (s.cl 15).fifo = 1 :: [2])
      ∧ (let c := { pooled .released with pushed := true }
        let s := calls loaded [(1, some c)]
        c.inFifo = false ∧ s.heldBack c = false ∧ (s.inst c.inst).st ≠ .inFlr ∧ s.batch c.inst c.queue = false) := by
  decide +kernel

/-- An accepting result word of 0 bytes with status 0 lets the small call finish with OK. -/
theorem wit_release_verdict :
    let p := { peal with scrubbed := true }
    let c := pooled .inPeal
    let s := ((calls loaded [(1, some c)]).setEng 0 { engine with mode := .ended, peal := some p }).setCl 0
      { Cluster.reset with csm := [(0x80005, 1#8)] }
    s.verdict c p.var [s.halfResult p.call { unit := 0, frame := 0, start := 64, res := none } p.var] = .finish 0 := rfl

theorem wit_power_and_seeds :
    let on (k : Cluster) : State := ready.setCl 15 k
    (∀ w : Bool, ((on { Cluster.reset with wakeReq := w }).cl 15).vpwr = .off)
      ∧ ((on { Cluster.reset with wakeReq := true }).cl 15).wakeReq = true
      ∧ ((on { Cluster.reset with vpwr := .waking }).cl 15).vpwr = .waking
      ∧ (let s := on { Cluster.reset with vpwr := .on }
        (s.cl 15).vpwr = .on ∧ s.forceOn 15 = false ∧ s.vecWork 15 = false)
      ∧ ((on { Cluster.reset with vpwr := .gating }).cl 15).vpwr = .gating
      ∧ ready.boot.ready = true ∧ ready.wakeGrantable = true
      ∧ ({ ready with sch := { ready.sch with wakeTimes := [0, 0] } } : State).wakeGrantable = false := by decide +kernel

/-- One DRBG instance serves. -/
def serves : State :=
  { ready with
    ent := { Ent.reset with started := true, mode := .full, drbgs := [(0, { Drbg.reset with st := .serving })] } }

theorem wit_seed_delivery : ∃ x u, serves.draw = some (x, u) := ⟨_, _, rfl⟩

/-! ## Host interface -/

/-- A ready device with 64 virtual functions, instance 1 with a window over the first 16 pages and a running queue 15 whose
rings have 16 entries. -/
def hosted : State :=
  let s := { ready with link := { ready.link with vfEnable := true, numVf := 64 } }
  (((s.setReg 0x10088 16#32).setReg 0x1008C 3#32).setReg (qpReg 1 15 + 0x10) 0x4000#32).setQueue 1 15
    { Queue.reset with st := .running, sqTail := 16#16, cqTail := 8#16 }

/-- A descriptor with its check byte and phase mark. -/
def entryOf (l : List (Nat × Byte)) (crc : Byte) (phase : Byte) : BitVec 512 :=
  BitVec.ofNat 512 (leNat ((desc l).take 62 ++ [crc, phase]))

/-- R357: the CRC-8 with polynomial 0x07 of the bytes 1, 2, 3 is 0x48. -/
theorem test_crc8 : crc8 [1#8, 2#8, 3#8] = 0x48 := by decide +kernel

theorem test_overrun_halts :
    let t := after (.sqDoorbell 1#8 15#4 17#16) hosted
    (t.queue 1 15).st = .halted ∧ (t.queue 1 15).haltCause = 1 ∧ bit32 (t.fault blkHiu).fstat 6 = true := by decide +kernel

theorem wit_queue_registers :
    PageOpen hosted 1 ∧ (hosted.queue 1 15).st = .running
      ∧ (let x := hosted.queue 1 15
        ((16#16 - x.sqHead).toNat ≤ hosted.sqSize 1 15 ∧ (16#16 - x.recSq.getD x.sqTail).toNat ≤ hosted.sqSize 1 15)
          ∧ ¬ ((17#16 - x.sqHead).toNat ≤ hosted.sqSize 1 15)
          ∧ ((x.cqTail - 8#16).toNat ≤ hosted.cqSize 1 15 ∧ (8#16 - x.cqHead).toNat ≤ (x.cqTail - x.cqHead).toNat)
          ∧ ¬ ((9#16 - x.cqHead).toNat ≤ (x.cqTail - x.cqHead).toNat))
      ∧ (hosted.inst 1).held = false
      ∧ (let s := hosted.setInst 1 { hosted.inst 1 with st := .frozen }
        PageOpen s 1 ∧ (s.inst 1).held = true ∧ (s.queue 1 15).st = .running ∧ (s.queue 1 15).recBad = [])
      ∧ (hosted.queue 1 0).st = .disabled
      ∧ (let s := hosted.setQueue 1 0 { Queue.reset with st := .draining }
        (s.queue 1 0).st = .draining ∧ (s.queue 1 0).active = 0)
      ∧ hosted.allocSum - hosted.activeMax 1 + fld 0x20#32 0 14 ≤ 8192
      ∧ 8192 < hosted.allocSum - hosted.activeMax 1 + fld 0x3FFF#32 0 14
      ∧ hosted.boot.ready = true ∧ (16#6).toNat < vectors 1 := by
  exact ⟨⟨by decide +kernel, by decide, by decide⟩, by decide +kernel, by decide +kernel, by decide +kernel,
    ⟨⟨by decide +kernel, by decide, by decide⟩, by decide +kernel⟩, by decide +kernel⟩

/-- A call without input of an Owner's score that engine 0 holds, taken by queue 15 of instance 1. -/
def takes : State :=
  let s := { hosted with sch := loaded.sch, engines := loaded.engines, clusters := loaded.clusters }
  s.setReg (instReg 1 + 8) 0x20#32

def entry : BitVec 512 :=
  entryOf [(0, 0xC0#8), (16, 64#8)] (BitVec.ofNat 8 (crc8 ((desc [(0, 0xC0#8), (16, 64#8)]).take 62))) 1#8

def taken : Call := newCall 1 15 0#16 (natLe 64 entry.toNat) (fld (takes.reg (qpReg 1 15)) 24 2) takes.sch.nextCall takes.g

def afterTake : State :=
  (takes.setQueue 1 15 { takes.queue 1 15 with sqHead := 1#16, notReady := [0#16] }).bump 0x200 1

theorem wit_take :
    takes.mayFetch 1 15 = true ∧ (takes.queue 1 15).due = true ∧ (takes.queue 1 15).copy 0#16 = none
      ∧ takes.windowOk 1 (takes.entryAddr 1 15 0#16) 64 false = true
      ∧ leAt (natLe 64 (0#512).toNat) 63 1 ≠ phaseOf 0 (takes.sqSize 1 15)
      ∧ (let s := takes.setReg 0x1008C 2#32
        s.mayFetch 1 15 = true ∧ s.windowOk 1 (s.entryAddr 1 15 0#16) 64 false = false)
      ∧ (let s := takes.setQueue 1 15 { takes.queue 1 15 with sqTail := 0#16 }
        s.mayFetch 1 15 = true ∧ (s.queue 1 15).due = false ∧ (s.queue 1 15).nextAhead = some (0#16, 1))
      ∧ (let s := takes.setQueue 1 15 { takes.queue 1 15 with ahead := [(0#16, entry)] }
        s.mayFetch 1 15 = true ∧ (s.queue 1 15).due = true ∧ (s.queue 1 15).copy 0#16 = some entry)
      ∧ leAt (natLe 64 entry.toNat) 63 1 = phaseOf 0 (takes.sqSize 1 15) ∧ takes.alarm = false
      ∧ takes.batch 1 15 = false
      ∧ (let bad := natLe 64 (entryOf [(0, 0xC0#8)] 0#8 1#8).toNat
        crc8 (bad.take 62) ≠ leAt bad 62 1)
      ∧ (let d := [(0, 0x00#8)]
        let none_ := newCall 1 15 0#16 ((desc d).take 62 ++ [BitVec.ofNat 8 (crc8 ((desc d).take 62)), 1#8]) 0 0 0
        crc8 (none_.desc.take 62) = leAt none_.desc 62 1 ∧ (afterTake.plan none_).isNone = true) := by decide +kernel

theorem taken_has_plan : (afterTake.plan taken).isSome = true := by decide +kernel

theorem wit_take_passes : ∃ p, Passes afterTake taken p false
    ∧ (match afterTake.room 15 taken p with | .ok .. => true | .full _ => false) = true := by
  refine ⟨(afterTake.plan taken).get taken_has_plan, ⟨?_, by simp, ?_, ?_, ?_, ?_, ?_, ?_, ?_, ?_, ?_, ?_⟩, ?_⟩
  all_goals decide +kernel

/-- A ready completion of queue 15 with room in the ring. -/
theorem wit_completion :
    let c := taken.cpl 0
    let s := hosted.setQueue 1 15 { hosted.queue 1 15 with ready := [c], cqHead := 1#16 }
    let x := s.queue 1 15
    x.ready = c :: [] ∧ (s.inst 1).held = false ∧ x.writes = true ∧ (x.cqTail - x.cqHead).toNat < s.cqSize 1 15
      ∧ s.windowOk 1 (s.cqBase 1 15 + 32 * (x.cqTail.toNat % s.cqSize 1 15)) 32 true = true ∧ s.irqFor 1 15 c = false
      ∧ (let r := s.setReg 0x1008C 1#32
        r.windowOk 1 (r.cqBase 1 15 + 32 * (x.cqTail.toNat % r.cqSize 1 15)) 32 true = false) := by decide +kernel

def instSt (st : InstState) : State := hosted.setInst 1 { Instance.reset with st := st }

theorem wit_instance_states :
    (∀ st : InstState, ((instSt st).inst 1).st = st) ∧ hosted.boot.ready = true
      ∧ (hosted.inst 1).st = .active ∧ (hosted.inst 1).quiesce = false
      ∧ ((hosted.setInst 1 { Instance.reset with st := .quiescing, quiesce := true }).inst 1).quiesce = true
      ∧ (instSt .quiescing).instActive 1 = 0 ∧ ((instSt .quiesced).inst 1).freeze = false
      ∧ (let x := (hosted.setInst 1 { Instance.reset with st := .frozen, freeze := true }).inst 1
        x.freeze = true ∧ x.st = .frozen ∧ x.restored = false)
      ∧ (instSt .active).present 1 = true
      ∧ (∀ k c, (k, some c) ∈ (instSt .inFlr).sch.calls → c.inst ≠ 1) ∧ ((instSt .inFlr).inst 1).heldCtrl = []
      ∧ State.reset.boot.ready = false := by
  refine ⟨fun st => by cases st <;> decide +kernel, by decide, by decide +kernel, by decide +kernel, by decide +kernel,
    by decide +kernel, by decide +kernel, by decide +kernel, by decide +kernel, ?_, by decide +kernel, by decide⟩
  intro k c h
  cases h

/-! ## Keys -/

/-- A valid inline entry of instance 1 under its root. -/
def keySlot (i type : Nat) (attr : W32) : KeySlot :=
  { dfltSlot i with st := .valid, type := type, owner := 1, depth := 1, parent := 0x10001, attr := attr, klen := 32 }

/-- Entries of instance 1: 256 a private key, 257 a wrapping key, 258 reserved for call 1. -/
def keyed : State :=
  { serves with
    keys := { serves.keys with slots :=
      [(256, keySlot 256 0x12 0xE6000004#32), (257, keySlot 257 0x02 0x20000180#32), (258, { keySlot 258 0x02 0#32 with st := .reserved })] }
    ent := { serves.ent with ivs := [1#96] } }

def keyCall (op : Byte) (l : List (Nat × Byte)) (okeys : List OutKey) : Call :=
  { call ((0, op) :: l) with st := .keyOp, okeys := okeys }

/-- Handle 0x01000001 in KEY0, slot 256. -/
def named : List (Nat × Byte) := [(28, 1#8), (31, 1#8)]

def keyTurnOf (c : Call) : State := calls keyed [(1, some c)]

theorem at_turn (op : Nat) (c : Call) (h1 : c.st = .keyOp) (h2 : c.opcode = op) (h3 : (keyTurnOf c).staleAny c = false)
    (h4 : (keyTurnOf c).lostKey c = none) (h5 : (keyTurnOf c).batch c.inst c.queue = false)
    (h6 : ((keyTurnOf c).inst c.inst).st ≠ .inFlr ∧ (keyTurnOf c).heldBack c = false) : AtTurn (keyTurnOf c) 1 op c :=
  ⟨rfl, h1, h2, h3, h4, h5, h6⟩

theorem wit_key_generate :
    let c := keyCall 0xA8#8 [(53, 32#8)] [{ num := 0, slot := 258, klen := 32 }]
    AtTurn (keyTurnOf c) 1 0xA8 c ∧ (∃ b u, (keyTurnOf c).drawKey (c.pbyte 1) = some (b, u)) ∧ ((keyTurnOf c).slot 258).klen ≤ 32 :=
  ⟨at_turn _ _ rfl rfl (by decide +kernel) (by decide +kernel) (by decide +kernel) (by decide +kernel), ⟨_, _, rfl⟩,
    by decide +kernel⟩

theorem wit_key_destroy :
    let c := keyCall 0xA9#8 named []
    let s := keyTurnOf c
    (s.call 1 = some c ∧ c.st = .keyOp ∧ c.opcode = 0xA9 ∧ s.batch c.inst c.queue = false ∧ (s.inst c.inst).st ≠ .inFlr
        ∧ c.keyHandle 0 ≠ 0 ∧ s.handleOk c.inst (c.keyHandle 0) = true ∧ c.aux.testBit 0 = false)
      ∧ (let c := keyCall 0xA9#8 ((2, 3#8) :: named) []
        let s := calls { keyed with
            keys := { keyed.keys with slots := [(256, { keySlot 256 0x18 0#32 with rctr := 1023, treeTag := 9 })] }
            bbram := { keyed.bbram with counters := [(1023, { ResCounter.reset with bound := true, tag := 9 })] } } [(1, some c)]
        c.aux.testBit 0 = true ∧ (s.slot 256).rctr ≠ 0xFFFF ∧ s.ctrAlive 256 = true ∧ s.handleOk 1 (c.keyHandle 0) = true) := by
  decide +kernel

theorem test_key_destroy_frees :
    let c := keyCall 0xA9#8 named []
    ((after (.keyDestroy 1#32) (keyTurnOf c)).slot 256).live = false
      ∧ (after (.keyDestroy 1#32) (keyTurnOf c)).call 1 = none := by decide +kernel

theorem wit_key_info :
    let c := keyCall 0xAA#8 named []
    AtTurn (keyTurnOf c) 1 0xAA c ∧ ((keyTurnOf c).setReg 0x1009C 3#32 |>.setReg 0x10098 1#32).windowOk 1 c.outAddr 32 true = true :=
  ⟨at_turn _ _ rfl rfl (by decide +kernel) (by decide +kernel) (by decide +kernel) (by decide +kernel), by decide +kernel⟩

theorem wit_key_restrict :
    let c := keyCall 0xAB#8 ((55, 0x20#8) :: named) []
    let a : W32 := BitVec.ofNat 32 (leAt c.param 0 4)
    AtTurn (keyTurnOf c) 1 0xAB c ∧ a &&& ~~~((keyTurnOf c).slot 256).attr = 0#32 ∧ userDenied a = false
      ∧ (keyTurnOf c).attrOk a 0x12 = true :=
  ⟨at_turn _ _ rfl rfl (by decide +kernel) (by decide +kernel) (by decide +kernel) (by decide +kernel), by decide +kernel⟩

/-- KEY_EXPORT of slot 256 under slot 257, to a window of instance 1. -/
theorem wit_key_export :
    let c := keyCall 0xAC#8 (named ++ [(32, 1#8), (34, 1#8), (35, 1#8)]) []
    let s := calls ((keyed.setReg 0x10088 1#32).setReg 0x1008C 3#32) [(1, some c)]
    (s.staleAny c = false ∧ s.lostKey c = none ∧ s.call 1 = some c) ∧ bit32 (s.slot 256).attr 31 = true
      ∧ hIndex (c.keyHandle 1) = 257 ∧ (s.slot 257).type = 0x02 ∧ bit32 (s.slot 257).attr uWrap = true
      ∧ ∃ key wk s1 s2, s.readFor c 0 [] = .ok key s1 ∧ s1.readFor c 1 [] = .ok wk s2
        ∧ s2.windowOk c.inst c.outAddr 48 true = true ∧ Direct s2 c :=
  ⟨by decide +kernel, by decide +kernel, by decide +kernel, by decide +kernel, by decide +kernel, _, _, _, _, rfl, rfl,
    by decide +kernel, by decide +kernel, by decide +kernel⟩

/-- KEY_PUBLIC_LOAD of an Ed25519 key. -/
theorem wit_key_public_load :
    let c := keyCall 0xAD#8 [(4, 32#8), (52, 0x24#8), (53, 0x7C#8)] [{ num := 0, slot := 258, klen := 32 }]
    let s := calls ((keyed.setReg 0x10088 1#32).setReg 0x1008C 1#32) [(1, some c)]
    (s.staleAny c = false ∧ s.lostKey c = none ∧ s.call 1 = some c) ∧ (∃ b s1, s.readInput c (.ok []) = (some b, s1)
      ∧ publicKeyOk (c.pbyte 0) (c.pbyte 1) b = true ∧ ∃ u, s1.fillSlot 258 b = some u ∧ Direct u c) := by
  exact ⟨by decide +kernel, _, _, rfl, by decide +kernel, _, rfl, by decide +kernel, by decide +kernel⟩

theorem wit_key_save :
    let c := keyCall 0xAE#8 named []
    AtTurn (keyTurnOf c) 1 0xAE c ∧ bit32 ((keyTurnOf c).slot 256).attr 30 = true
      ∧ ∃ key s1, (keyTurnOf c).readFor c 0 [] = .ok key s1 ∧ ∃ r, s1.sealOut 256 (!c.aux.testBit 0) key = some r :=
  ⟨at_turn _ _ rfl rfl (by decide +kernel) (by decide +kernel) (by decide +kernel) (by decide +kernel), by decide +kernel,
    _, _, rfl, _, rfl⟩

/-- KEY_LOAD opens a saved record that the device itself sealed: here for a slot of instance 1, a key of 32 bytes. -/
def savedHeader : Bytes :=
  natLe 4 0x31564B41 ++ natLe 2 1 ++ natLe 1 0x12 ++ natLe 1 1 ++ natLe 4 0x01000001 ++ natLe 12 0 ++ natLe 1 1 ++ natLe 1 0x14
    ++ natLe 2 0xFFFF ++ natLe 4 0xE6000004 ++ natLe 4 32 ++ natLe 8 0 ++ natLe 8 0 ++ natLe 12 0

def savedRec (root : BitVec 256) : Bytes := sealRecord root savedHeader 0#96 (List.replicate 32 7#8)

theorem savedRec_opens (s : State) (root : BitVec 256) (h : s.vaultRoot = some root) (he : s.otp.era = 0)
    (hs : s.bbram.eraSpent = false) (hi : s.epoch 1 = 0) (ha : s.attrOk 0xE6000004#32 0x12 = true) :
    s.openSaved 1 (savedRec root) = some { type := 0x12, set := 0x14, handle := 0x01000001, rctr := 0xFFFF
                                           attr := 0xE6000004#32, klen := 32, tag := 0, key := List.replicate 32 7#8 } := by
  have h64 : savedHeader.length = 64 := by decide +kernel
  have hl : ∀ o n, o + n ≤ 64 → leAt (savedRec root) o n = leAt savedHeader o n := fun o n h => by
    unfold savedRec sealRecord
    exact leAt_append _ _ _ _ (by omega)
  have hr : openRecord root (savedRec root) = some (List.replicate 32 7#8) :=
    openRecord_sealRecord _ _ _ _ h64 (by decide +kernel) (by decide +kernel)
  have hn : (savedRec root).length = 112 := by
    unfold savedRec
    rw [sealRecord_length, h64, List.length_replicate]
  have f (o n v : Nat) (h : o + n ≤ 64) (hv : leAt savedHeader o n = v) : leAt (savedRec root) o n = v := (hl o n h).trans hv
  simp only [State.openSaved, hn, h, hr, he, hs, hi, Option.bind_some, Option.map_some,
    f 0 4 0x31564B41 (by omega) (by decide +kernel), f 4 2 1 (by omega) (by decide +kernel), f 6 1 0x12 (by omega) (by decide +kernel),
    f 7 1 1 (by omega) (by decide +kernel), f 8 4 0x01000001 (by omega) (by decide +kernel), f 16 4 0 (by omega) (by decide +kernel),
    f 20 4 0 (by omega) (by decide +kernel), f 24 1 1 (by omega) (by decide +kernel), f 25 1 0x14 (by omega) (by decide +kernel),
    f 26 2 0xFFFF (by omega) (by decide +kernel), f 28 4 0xE6000004 (by omega) (by decide +kernel),
    f 32 4 32 (by omega) (by decide +kernel), f 44 8 0 (by omega) (by decide +kernel)]
  simp [ha]

/-- KEY_LOAD makes a new entry, or refills slot 256 where its key is LOST; a valid entry is not refilled. -/
theorem wit_key_load (root : BitVec 256) (hroot : ((keyed.setReg 0x10088 1#32).setReg 0x1008C 1#32).vaultRoot = some root) :
    let c := keyCall 0xAF#8 [(4, 112#8)] []
    let d := keyCall 0xAF#8 ((4, 112#8) :: named) []
    let base := (keyed.setReg 0x10088 1#32).setReg 0x1008C 1#32
    let s := calls base [(1, some c)]
    let lost : State := calls (base.setSlot 256 { keySlot 256 0x12 0xE6000004#32 with st := .lost }) [(1, some d)]
    let r : LoadRec := { type := 0x12, set := 0x14, handle := 0x01000001, rctr := 0xFFFF, attr := 0xE6000004#32, klen := 32
                         tag := 0, key := List.replicate 32 7#8 }
    (s.staleAny c = false ∧ s.lostKey c = none ∧ s.call 1 = some c) ∧ s.readInput c (.ok (savedRec root)) = (some (savedRec root), s)
      ∧ s.openSaved 1 (savedRec root) = some r ∧ s.savedCtrOk r = true
      ∧ c.okeys = [] ∧ c.keyHandle 0 = 0 ∧ s.entryRoom 1 32 = (some 259, s)
      ∧ (∃ u, s.makeEntry 259 { dfltSlot 259 with klen := 32 } r.key = some u ∧ Direct u c)
      ∧ (lost.staleAny d = false ∧ lost.lostKey d = none ∧ lost.call 1 = some d ∧ (lost.slot 256).st = .lost
        ∧ hIndex (d.keyHandle 0) = 256 ∧ d.keyHandle 0 = r.handle)
      ∧ lost.openSaved 1 (savedRec root) = some r
      ∧ (∃ u, (lost.setSlot 256 { lost.slot 256 with bleft := 0 }).fillSlot 256 (padTo 32 r.key) = some u ∧ Direct u d)
      ∧ ((calls base [(1, some d)]).staleAny d = false ∧ ((calls base [(1, some d)]).slot 256).st ≠ .lost
        ∧ d.keyHandle 0 ≠ 0) := by
  intro c d base s lost r
  have hn : (savedRec root).length = 112 := by
    unfold savedRec
    rw [sealRecord_length]
    decide +kernel
  have hin : s.readInput c (.ok (savedRec root)) = (some (savedRec root), s) := by
    have h0 : c.inLen = 112 := by decide +kernel
    have hw : s.windowOk c.inst c.inAddr 112 false = true := by decide +kernel
    simp [State.readInput, h0, hw, padTo_self hn]
  exact ⟨by decide +kernel, hin, savedRec_opens s root hroot (by decide +kernel) (by decide +kernel) (by decide +kernel)
      (by decide +kernel), by decide +kernel, rfl, by decide +kernel, by decide +kernel,
    ⟨_, rfl, by decide +kernel, by decide +kernel, by decide +kernel⟩,
    by decide +kernel, savedRec_opens lost root hroot (by decide +kernel) (by decide +kernel) (by decide +kernel)
      (by decide +kernel), ⟨_, rfl, by decide +kernel, by decide +kernel, by decide +kernel⟩, by decide +kernel⟩

/-- The vault root of the small device. -/
theorem wit_key_load_root : ∃ root, ((keyed.setReg 0x10088 1#32).setReg 0x1008C 1#32).vaultRoot = some root := ⟨_, rfl⟩

/-- KeyUpkeep: a pass at its start, at an inline entry, at an orphan, at its end; tokens; an empty and a used vault. -/
theorem wit_key_upkeep :
    let at_ (p : Nat) : State := { keyed with keys := { keyed.keys with sweepAt := some p } }
    let inUse : State := { keyed with keys := { keyed.keys with slots := [(256, { keySlot 256 0x10 0#32 with loc := 1, klen := 64 })] } }
    keyed.boot.ready = true ∧ keyed.keys.sweepAt = none ∧ ready.draw.isNone = true ∧ ready.keys.sweepAt = none
      ∧ (((at_ 0).keys.slots.filter fun e => decide (0 ≤ e.1)).map (·.1) = 256 :: [257, 258] ∧ ((at_ 0).slot 256).live = true
        ∧ ((at_ 0).slot 256).loc = 0 ∧ (at_ 0).chainOk 256 = true ∧ ((at_ 0).slot 256).bad = false)
      ∧ (let s := (at_ 0).setSlot 256 { keySlot 256 0x12 0#32 with parent := 0x01050001 }
        (s.slot 256).live = true ∧ s.chainOk 256 = false)
      ∧ (∀ e ∈ (at_ 259).keys.slots, e.1 < 259)
      ∧ (let s := keyed.setReg 0x504000 0x01000001#32
        let i := hIndex (s.reg 0x504000).toNat
        i = 256 ∧ (s.slot i).gen = hGen (s.reg 0x504000).toNat ∧ (s.slot i).st = .valid ∧ (s.slot i).loc = 0
          ∧ (s.slot i).token = none)
      ∧ keyed.vaultUsed = [] ∧ inUse.vaultUsed ≠ [] ∧ (inUse.setReg 0x500004 1#32).vaultEn = true := by decide +kernel

theorem wit_key_upkeep_draws :
    (∃ x u, keyed.draw = some (x, u)) ∧ (∃ x u, keyed.draw256 = some (x, u)) ∧ ready.draw256 = none :=
  ⟨⟨_, _, rfl⟩, ⟨_, _, rfl⟩, by decide +kernel⟩

/-- A token taken for share 0 turns share 1 away. -/
theorem test_share_read_denied :
    let s := (keyed.setReg 0x504000 0x01000001#32).setSlot 256 { keySlot 256 0x12 0#32 with token := some 0 }
    (after (.supShareRead true) s).keys.supData = List.replicate 32 0#8 := by decide +kernel

/-! ## Mailbox -/

/-- The device of `keyed` with a message of instance 0 in service: command, payload. -/
def mailed (cmd : Byte) (payload : Bytes) : State :=
  ((keyed.setReg 0x10008 16#32).setReg 0x1000C 3#32).setInst 0 { Instance.reset with
    mbx := { Mailbox.reset with busy := true, inb := wrBytes [] 0 ([cmd, 5#8] ++ natLe 2 payload.length ++ payload) } }

/-- The 12 bytes that name a buffer of 2,048 bytes at address 0. -/
def buffer : Bytes := natLe 8 0 ++ natLe 4 2048

theorem wit_mailbox :
    (PageOpen keyed 0 ∧ (keyed.inst 0).mbx.busy = false ∧ (keyed.inst 0).mbx.outValid = false)
      ∧ ((mailed 1#8 []).inst 0).mbx.busy = true ∧ ((mailed 1#8 []).inst 0).mbx.answer = none
      ∧ ((mailed 1#8 []).inst 0).st ≠ .inFlr
      ∧ (let s := keyed.setInst 0 { Instance.reset with mbx := { Mailbox.reset with answer := some (0, [1#8]) } }
        (s.inst 0).mbx.answer = some (0, [1#8]))
      ∧ Asked (mailed 0x01#8 []) 0 0x01 ∧ Asked (mailed 0x02#8 buffer) 0 0x02
      ∧ Asked (mailed 0x03#8 (List.replicate 32 0#8 ++ buffer)) 0 0x03
      ∧ (Asked (mailed 0x20#8 [248#8]) 0 0x20 ∧ (∃ w u, (mailed 0x20#8 [248#8]).supWords 62 8 = some (w, u)))
      ∧ (mailed 0x20#8 [248#8]).ent.mode ≠ .halted :=
  ⟨⟨⟨by decide +kernel, by decide, by decide⟩, by decide +kernel, by decide +kernel⟩, by decide +kernel, by decide +kernel,
    by decide +kernel, by decide +kernel, ⟨by decide +kernel, by decide +kernel⟩, ⟨by decide +kernel, by decide +kernel⟩,
    ⟨by decide +kernel, by decide +kernel⟩, ⟨⟨by decide +kernel, by decide +kernel⟩, _, _, rfl⟩, by decide +kernel⟩

/-- A report's length is what its uninterpreted signature makes it; a buffer either takes it or does not. -/
theorem wit_mailbox_buffers :
    (mailed 0x02#8 buffer).certChain.length ≤ 2048 ∨ 2048 < (mailed 0x02#8 buffer).certChain.length := by omega

/-- Instance 1 FROZEN with nothing of its own, for the three hamper commands of the Manager. -/
def frozen (cmd : Byte) (payload : Bytes) : State :=
  let s := (mailed cmd payload).setInst 1 { Instance.reset with st := .frozen, freeze := true }
  { s with keys := { s.keys with slots := [] } }

theorem wit_hamper :
    (Asked (frozen 0x10#8 [1#8]) 0 0x10 ∧ (frozen 0x10#8 [1#8]).targetOk 1 = true
      ∧ (frozen 0x10#8 [1#8]).bbram.nonces.length < 4 ∧ ∃ v u, (frozen 0x10#8 [1#8]).draw = some (v, u))
      ∧ (let s := frozen 0x11#8 ([1#8] ++ List.replicate 64 0#8 ++ buffer)
        Asked s 0 0x11 ∧ (s.inst 1).st = .frozen ∧ s.dge.wait = []
          ∧ ∃ body s1, s.entryRecords 1 (s.ownedEntries 1) []
              (((List.range 16).flatMap fun q => s.queueRecord 1 q) ++ natLe 1 (s.inst 1).mbx.seq) = (.inl body, s1)
            ∧ 144 + body.length ≤ 2048 ∧ s1.windowOk 0 0 (144 + body.length) true = true
            ∧ (∃ iv s2, s1.takeIv = some (iv, s2)) ∧ s1.instances = s.instances ∧ s1.dge = s.dge ∧ s1.Canonical) :=
  ⟨⟨⟨by decide +kernel, by decide +kernel⟩, by decide +kernel, by decide +kernel, _, _, rfl⟩,
    ⟨by decide +kernel, by decide +kernel⟩, by decide +kernel, by decide +kernel, _, _, rfl, by decide +kernel,
    by decide +kernel, ⟨_, _, rfl⟩, rfl, rfl, ⟨by decide +kernel, by decide +kernel, by decide +kernel⟩⟩

def restoring : State :=
  let s := frozen 0x12#8 ([1#8] ++ natLe 8 0 ++ natLe 4 144)
  { s with bbram := { s.bbram with nonces := [{ inst := 1, val := List.replicate 32 3#8 }] } }

/-- A hamper for instance 1 that carries no entry, as a source device of TARGET_ID zero seals it. -/
def hamperFront : Bytes :=
  hamperHeader 1 0 0 (List.replicate 32 0#8) restoring.targetId (List.replicate 32 3#8) 0#96

def hamper : Bytes :=
  hamperFront ++ gcmSeal (hamperKey (List.replicate 32 0#8) restoring.targetId (List.replicate 32 3#8)) 0#96 hamperFront []

/-- The layout of that hamper's 128 header bytes. -/
theorem hamper_front :
    hamperFront.length = 128 ∧ (hamperFront.drop 8).take 32 = List.replicate 32 0#8
      ∧ (hamperFront.drop 40).take 32 = restoring.targetId ∧ (hamperFront.drop 72).take 32 = List.replicate 32 3#8 :=
  ⟨rfl, rfl, rfl, rfl⟩

theorem hamper_opens : restoring.openHamper 1 hamper = some [] := by
  obtain ⟨hl, h8, h40, h72⟩ := hamper_front
  have hlen : hamper.length = 144 := by
    unfold hamper
    rw [List.length_append, gcmSeal_length, hl]; rfl
  have hd (o n : Nat) (h : o + n ≤ 128) : (hamper.drop o).take n = (hamperFront.drop o).take n := by
    unfold hamper
    rw [List.drop_append_of_le_length (by omega), List.take_append_of_le_length (by simp; omega)]
  have hle (o n v : Nat) (h : o + n ≤ 128) (hv : leAt hamperFront o n = v) : leAt hamper o n = v :=
    (leAt_append _ _ _ _ (by omega)).trans hv
  have ht : hamper.take 128 = hamperFront := by
    have h := hd 0 128 (by omega)
    rw [List.drop_zero, List.drop_zero, List.take_of_length_le (l := hamperFront) (by omega)] at h
    exact h
  have hr : hamper.drop 128
      = gcmSeal (hamperKey (List.replicate 32 0#8) restoring.targetId (List.replicate 32 3#8)) 0#96 hamperFront [] := by
    unfold hamper
    rw [← hl, List.drop_left]
  have hn : restoring.nonceOf 1 = some (List.replicate 32 3#8) := rfl
  simp only [State.openHamper, hlen, ht, hr, hd 8 32 (by omega), hd 40 32 (by omega), hd 72 32 (by omega), h8, h40, h72, hn,
    hle 0 4 0x31484B41 (by omega) rfl, hle 4 2 1 (by omega) rfl, hle 108 4 0 (by omega) rfl, hle 112 12 0 (by omega) rfl,
    gcmOpen_gcmSeal]
  simp

theorem wit_hamper_restore :
    Asked restoring 0 0x12 ∧ restoring.targetOk 1 = true
      ∧ restoring.readBuf 0 0 144 (.ok hamper) = (some hamper, restoring) ∧ restoring.openHamper 1 hamper = some []
      ∧ restoring.restoreRoom 1 0 [] = none ∧ (ctrsNeeded 0 []).length ≤ restoring.freeCtrs
      ∧ ∃ r, restoring.restoreEntries 1 { slots := [], ctrs := [] } 0 [] = .ok r := by
  have hlen : hamper.length = 144 := by
    unfold hamper
    rw [List.length_append, gcmSeal_length, hamper_front.1]; rfl
  have hb : restoring.readBuf 0 0 144 (.ok hamper) = (some hamper, restoring) := by
    have hw : restoring.windowOk 0 0 144 false = true := by decide +kernel
    simp [State.readBuf, hw, padTo_self hlen]
  exact ⟨⟨by decide +kernel, by decide +kernel⟩, by decide +kernel, hb, hamper_opens, rfl, Nat.zero_le _, _, rfl⟩

/-- An import for instance 1 under a transport key of zeros in slot 257; the key authority's public keys are zeros. -/
def importing : State :=
  let s := ((keyed.setReg 0x10088 2#32).setReg 0x1008C 1#32).setInst 1 { Instance.reset with
    mbx := { Mailbox.reset with busy := true, inb := wrBytes [] 0 ([4#8, 5#8] ++ natLe 2 12 ++ natLe 8 0 ++ natLe 4 7508) } }
  let s := s.setSlot 257 { s.slot 257 with body := xor32 (List.replicate 32 0#8) (s.bodyMask 257) }
  { s with otp := { s.otp with kaDigest := sha3_256 (List.replicate 2592 0#8 ++ List.replicate 97 0#8) } }

/-- RFC 5649 under 32 zero bytes: TYPE 0x12, SET 0x14, KLEN 2, ATTR 0, then the key bytes 7 and 8. -/
def wrapped : Bytes := natBe 24 0xfb5f67c2fac9c230409aef2f91f7831d7dad932c37308df8

theorem wrapped_opens :
    aesUnwrap (List.replicate 32 0#8) wrapped = some ([0x12#8, 0x14#8] ++ natLe 6 2 ++ [7#8, 8#8]) := by decide +kernel

def messageFront : Bytes :=
  natLe 4 0x31494B41 ++ natLe 2 1 ++ natLe 1 0x12 ++ natLe 1 0x14 ++ importing.targetId ++ natLe 4 0 ++ natLe 4 1 ++ natLe 4 1
    ++ natLe 4 0xE6000004 ++ natLe 4 0x01010001 ++ natLe 4 0 ++ natLe 4 24 ++ natLe 4 0 ++ wrapped

def message : Bytes := messageFront ++ List.replicate 7412 0#8

/-- Bytes behind the front of a string that goes on with zeros. -/
theorem zeros_behind (a : Bytes) (l m k n : Nat) (hl : a.length = l) (h : n ≤ m - k) :
    ((a ++ List.replicate m 0#8).drop (l + k)).take n = List.replicate n 0#8 := by
  rw [← hl, ← List.drop_drop, List.drop_left, List.drop_replicate, List.take_replicate, Nat.min_eq_left h]

theorem message_keys (k n : Nat) (h : n ≤ 7412 - k) : (message.drop (96 + k)).take n = List.replicate n 0#8 := by
  unfold message
  exact zeros_behind messageFront 96 7412 k n rfl h

/-- KEY_IMPORT under signatures that verify: those of the two authority algorithms are uninterpreted. -/
theorem wit_key_import (hm : ∀ a b c d, Config.mlDsa87Verify a b c d = true) (he : ∀ a b c, Config.ecdsaP384Verify a b c = true) :
    Asked importing 1 0x04 ∧ importing.importRefusal 1 message = none
      ∧ (∃ s2, importing.readKey 257 .busError = .ok (List.replicate 32 0#8) s2 ∧ ∃ s3, s2.entryRoom 1 2 = (some 259, s3)
        ∧ ∃ s4, s3.makeEntry 259 (s3.importEntry 1 message [7#8, 8#8] 259) [7#8, 8#8] = some s4)
      ∧ unwrapImport message (List.replicate 32 0#8) = some [7#8, 8#8] ∧ leAt message 44 4 ≠ 0xFFFFFFFF := by
  have hw : leAt message 64 4 = 24 := by decide +kernel
  refine ⟨⟨by decide +kernel, by decide +kernel⟩, ?_, ?_, ?_, by decide +kernel⟩
  · have h1 : importLayoutOk message = true := by decide +kernel
    have h2 : importing.importAuthOk message = true := by
      have hk : importing.otp.kaDigest = sha3_256 (List.replicate 2592 0#8 ++ List.replicate 97 0#8) := rfl
      simp only [State.importAuthOk, authorityOk, hm, he, hw, message_keys 0 2592 (by omega),
        message_keys 2592 97 (by omega), hk, beq_self_eq_true, Bool.and_self]
    have ht : (message.drop 8).take 32 = importing.targetId := rfl
    have h3 : importing.importTargetOk 1 message = true := by
      simp only [State.importTargetOk, ht]
      rw [BEq.rfl]
      decide +kernel
    simp only [State.importRefusal, h1, h2, h3]
    decide +kernel
  · have hk : importing.inlineKey 257 = List.replicate 32 0#8 := by
      have h : importing.inlineKey 257
          = (xor32 (xor32 (List.replicate 32 0#8) (importing.bodyMask 257)) (importing.bodyMask 257)).take 32 := rfl
      rw [h, xor32_cancel _ _ rfl]
      rfl
    have hr : importing.readKey 257 .busError = .ok (importing.inlineKey 257) importing.countDelivery := rfl
    exact ⟨_, hr.trans (by rw [hk]), _, Prod.ext (by decide +kernel) rfl, Option.isSome_iff_exists.mp (by decide +kernel)⟩
  · have h4 : leAt message 6 1 = 0x12 := by decide +kernel
    have h5 : leAt message 7 1 = 0x14 := by decide +kernel
    have hu : (message.drop 72).take 24 = wrapped := by decide +kernel
    simp only [unwrapImport, hw, hu, wrapped_opens, h4, h5, Option.bind_some]
    decide +kernel

/-! ## Entropy -/

/-- Sources in the given state with the given credit, each. -/
def sourced (mode : EntMode) (st : SrcSt) (credit : Nat) : State :=
  { ready with ent := { Ent.reset with
      started := true, mode := mode, sources := (List.range 4).map fun n => (n, { Source.reset with st := st, credit := credit }) } }

/-- R475: the third failure still restarts a source after its retry, and the fourth disables it (R454). -/
theorem test_source_retry :
    let at_ (n : Nat) : State := after (.sourceRetry 3#2) ((sourced .full .pass 0).setSrc 3 { Source.reset with st := .failed, fails := n })
    ((at_ 3).src 3).st = .startup ∧ ((at_ 4).src 3).st = .disabled ∧ (at_ 3).g = 39062500 := by decide +kernel

/-- R471, R472: with one source left passing, ENT halts. -/
theorem test_two_failures_halt :
    let s := (sourced .full .pass 0).setSrc 0 { Source.reset with st := .disabled } |>.setSrc 1 { Source.reset with st := .disabled }
    (after (.sourceHealthFail 3#2 true) s).ent.mode = .halted
      ∧ ((after (.sourceHealthFail 3#2 true) s).src 3).cause = 2 := by decide +kernel

theorem wit_entropy :
    let s0 : State := { ready with lcc := { Lcc.reset with decoded := true } }
    let on := sourced .startup .startup 0
    (s0.ent.started = false ∧ s0.lcc.decoded = true ∧ s0.boot.halted = false ∧ s0.ent.mode = .startup)
      ∧ (on.src 3).st = .startup ∧ on.ent.mode = .startup ∧ on.ent.katFail = false
      ∧ 2 ≤ (after (.startupTestPass 3#2 5#11) (on.setSrc 0 { Source.reset with st := .pass })).passing
      ∧ ((sourced .full .pass 0).src 0).st = .pass
      ∧ (after (.sourceHealthFail 3#2 true) (sourced .degraded .startup 0)).passing < 2
      ∧ ((sourced .full .failed 0).src 3).st = .failed ∧ ready.boot.ready = true
      ∧ (15#4).getLsbD 3 = true ∧ ((sourced .full .disabled 0).src 3).st ≠ .off
      ∧ (let s := sourced .full .pass 60000
        s.ent.block = none ∧ ((List.range 3751).find? fun y => decide (240000 ≤ s.settle.totalAfter y)) = some 0)
      ∧ (let s : State := { serves with ent := { serves.ent with block := some 0#512 } }
        s.ent.block = some 0#512 ∧ s.ent.mode = .full ∧ s.nextWaiting = some (1#4).toNat ∧ s.boot.bootIdDue = false
          ∧ (s.drbg 1).st = .uninst)
      ∧ (let s : State := { serves with ent := { serves.ent with block := some 0#512, drbgs := [(0, { Drbg.reset with st := .reseeding })] } }
        s.nextWaiting = some (0#4).toNat ∧ (s.drbg 0).st = .reseeding)
      ∧ serves.servingDrbg = some 0
      ∧ ((sourced .halted .failed 0).servingDrbg = none ∧ (sourced .halted .failed 0).ent.mode = .halted)
      ∧ (let s : State := { serves with ent := { serves.ent with swBuf := [7#32], supBuf := [8#32] } }
        s.ent.buf false = [7#32] ∧ s.ent.buf true = [8#32])
      ∧ serves.ent.buf true = [] ∧ serves.ent.mode ≠ .halted ∧ serves.ent.ivs.length ≤ 123 := by decide +kernel

theorem wit_entropy_draw : ∃ x u, serves.draw = some (x, u) := ⟨_, _, rfl⟩

/-! ## Digests -/

/-- Instance 1 with a command in its mailbox, a window over the first 16 pages, and the save region enabled. -/
def digesting (cmd : Byte) (payload : Bytes) (ctx : Option (Nat × DgeCtx)) : State :=
  let s := ((hosted.setReg 0x700004 0x80000001#32).setReg 0x700010 0x100000#32).setInst 1 { Instance.reset with
    mbx := { Mailbox.reset with busy := true, inb := wrBytes [] 0 ([cmd, 5#8] ++ natLe 2 payload.length ++ payload) } }
  match ctx with
  | some (k, c) => s.setCtx k c
  | none => s

/-- An OPEN context of SHA-256 and 3 declared bytes. -/
def openCtx : DgeCtx := { DgeCtx.reset with st := .opened, alg := 2, declen := 3 }

def absorbing (finish : Bool) (len : Nat) (last : Bytes) : DgeJob :=
  { finish := finish, viaMbx := false, addr := 0, len := len, last := last, cmp := false, expect := [], outLen := 0
    outAddr := 0, pos := 0 }

/-- R480: bytes beyond the declared length are counted and not absorbed. -/
theorem test_declared_length :
    let c := openCtx.absorb [1#8, 2#8, 3#8, 4#8]
    c.rcvd = 4 ∧ c.msg = [1#8, 2#8, 3#8] ∧ c.trunc = true := by decide +kernel

/-- R480: a FINISH that received less than the declared length ends 0x0A. -/
theorem test_length_mismatch :
    let s := { hosted with dge := { Dge.reset with units := [(15, 8)], ctxs := [(8, { openCtx with st := .run, job := some (absorbing true 0 [1#8, 2#8]) })] } }
    ((after (.digestJobEnd 15#4 (.ok []) 0#2) s).ctx 8).result = 0x0A := by decide +kernel

theorem wit_digest_mailbox :
    (let p := [7#8, 2#8, 0#8, 0#8] ++ natLe 8 3
     let s := digesting 0x28#8 p none
     leAt (s.inst 1).mbx.payload 0 1 < 8 ∧ Asked s 1 0x28 ∧ leAt (s.inst 1).mbx.payload 2 2 = 0 ∧ (s.ctx 15).st = .free
        ∧ digestBlock (leAt (s.inst 1).mbx.payload 1 1) ≠ none ∧ leAt (s.inst 1).mbx.payload 4 8 ≤ digestMax 2 ∧ s.saveEn = true)
      ∧ (let s := digesting 0x29#8 ([7#8, 0#8, 0#8, 0#8] ++ natLe 8 0 ++ natLe 4 3) (some (15, openCtx))
        Asked s 1 0x29 ∧ leAt (s.inst 1).mbx.payload 1 3 = 0 ∧ (s.ctx 15).st = .opened ∧ (s.ctx 15).saved = false
          ∧ bufLen (s.inst 1).mbx.payload 4 ≤ 0x10000000 ∧ s.dge.freeUnit = some 0)
      ∧ (let s := digesting 0x2A#8 ([7#8, 1#8, 0#8, 0#8] ++ natLe 8 0 ++ natLe 4 3 ++ List.replicate 76 0#8) (some (15, openCtx))
        Asked s 1 0x2A ∧ leAt (s.inst 1).mbx.payload 1 1 < 2 ∧ isShake (s.ctx 15).alg = false
          ∧ leAt (s.inst 1).mbx.payload 2 2 = 0 ∧ leAt (s.inst 1).mbx.payload 16 12 = 0
          ∧ s.readBuf 1 (0 + 3 - lastBytes 3) (lastBytes 3) (.ok [1#8, 2#8, 3#8]) = (some [1#8, 2#8, 3#8], s))
      ∧ (let s := digesting 0x2B#8 ([7#8]) (some (15, { openCtx with st := .done }))
        Asked s 1 0x2B ∧ (s.ctx 15).st = .done) := by
  unfold Asked
  refine ⟨by decide +kernel, by decide +kernel, ⟨by decide +kernel, by decide +kernel, by decide +kernel, by decide +kernel,
    by decide +kernel, rfl⟩, by decide +kernel⟩

theorem wit_digest_registers :
    (let s := digesting 0x28#8 [] none
     s.boot.ready = true ∧ (s.ctx 15).st = .free ∧ digestBlock (5#4).toNat ≠ none ∧ s.cx64 15 0x08 ≤ digestMax 5 ∧ s.saveEn = true)
      ∧ (let s := digesting 0x28#8 [] (some (15, openCtx))
        (s.ctx 15).st = .opened ∧ (s.ctx 15).saved = false ∧ (s.reg (dgePage 15 + 0x18)).toNat ≤ 0x10000000
          ∧ s.dge.freeUnit = some 0 ∧ fld (s.reg (dgePage 15 + 0x30)) 0 4 ≤ 8 ∧ isShake 2 = false
          ∧ fld (s.reg (dgePage 15 + 0x30)) 16 13 = 0)
      ∧ (let s := (digesting 0x28#8 [] (some (15, { openCtx with alg := 10 }))).setReg (dgePage 15 + 0x30) 0x10000008#32
        isShake (s.ctx 15).alg = true ∧ fld (s.reg (dgePage 15 + 0x30)) 16 13 = 4096)
      ∧ ((digesting 0x28#8 [] (some (15, { openCtx with st := .run }))).ctx 15).st = .run := by decide +kernel

theorem wit_digest_jobs :
    let s (finish : Bool) : State := { hosted with dge := { Dge.reset with
      units := [(15, 8)], ctxs := [(8, { openCtx with st := .run, job := some (absorbing finish 3 []) })] } }
    let c := ((s true).ctx 8).absorb (padTo 3 [1#8, 2#8, 3#8] ++ [])
    ((s false).dge.units.find? fun p => p.1 == (15#4).toNat) = some (15, 8)
      ∧ ((s false).ctx 8).job = some (absorbing false 3 []) ∧ (s false).dge.wait = []
      ∧ (s false).windowOk 1 0 3 false = true ∧ c.declen ≤ c.rcvd := by decide +kernel

/-- The output has the length of its algorithm whatever the digest function gives. -/
theorem wit_digest_output : (openCtx.output (absorbing true 3 [])).length ≤ 64 := by
  simp [DgeCtx.output, openCtx, padTo, isShake, digestOut, DgeCtx.reset]

theorem wit_digest_switch :
    let s : State := { hosted with dge := { Dge.reset with
      units := (List.range 16).map fun n => (n, 8 + n), wait := [24, 25], due := some 15
      ctxs := [(23, { openCtx with st := .run, declen := 200, job := some (absorbing false 200 []) }),
               (24, { openCtx with st := .run, job := some (absorbing false 3 []) }),
               (25, { openCtx with st := .run, job := some (absorbing false 3 []) })] } }
    (s.dge.units.find? fun p => p.1 == (15#4).toNat) = some (15, 23) ∧ s.dge.freeUnit = none ∧ (s.ctx 24).saved = false
      ∧ 0 + (List.replicate 64 0#8 : Bytes).length ≤ 200
      ∧ ((s.ctx 23).rcvd + 64) % (digestBlock (s.ctx 23).alg).getD 64 = 0 ∧ s.dge.due = some (15#4).toNat := by decide +kernel

theorem wit_save_region :
    ready.saveRefused ((ready.reg 0x700010).toNat + (ready.reg 0x700014).toNat * 2 ^ 32) = false
      ∧ (let s := digesting 0x28#8 [] (some (15, openCtx))
        let v := 0x200000#32
        s.saveRefused ((v &&& 0xFFF00000#32).toNat + (s.reg 0x700014).toNat * 2 ^ 32) = true ∧ v &&& 0xFFF00000#32 ≠ s.reg 0x700010) := by
  decide +kernel

/-! ## DMA -/

/-- Channel 15 copies 128 bytes of DRAM from 0x1000 to 0x2000, with the given transform bits. -/
def copying (st : ChSt) (bits : W32) : State :=
  let s := ((((ready.setReg (dmaPage 15) (0x05000000#32 ||| bits)).setReg (dmaPage 15 + 0x04) 0x1000#32).setReg
    (dmaPage 15 + 0x0C) 0x2000#32).setReg (dmaPage 15 + 0x14) 128#32).setCh 15 { DmaCh.reset with st := st }
  { s with
    gov := { s.gov with gib0 := 16, ok0 := true }
    dram := wrBytes [] 0x1000 [1#8, 2#8, 3#8, 4#8] }

theorem test_dma_copy :
    let t := after (.dmaDone 15#4 []) (copying .run 0#32)
    rdByte t.dram 0x2003 = 4#8 ∧ (t.ch 15).prog = 128 ∧ bit32 (t.fault blkDma).fstat 9 = true := by decide +kernel

/-- R498: SWAP 2 reverses the bytes of each 4-byte group. -/
theorem test_dma_swap : rdByte (after (.dmaDone 15#4 []) (copying .run 0x80#32)).dram 0x2003 = 1#8 := by decide +kernel

theorem wit_dma :
    (let s := copying .idle 0#32
     s.boot.ready = true ∧ s.dma.dead = false ∧ (s.ch 15).active = false
        ∧ (s.setReg (dmaPage 15) (0x05000000#32 &&& dmaCfgMask)).dmaCfgOk 15 = true
        ∧ (s.setReg (dmaPage 15) (0x05000020#32 &&& dmaCfgMask)).dmaCfgOk 15 = false)
      ∧ ((copying .run 0#32).ch 15).active = true ∧ ((copying .pausing 0#32).ch 15).active = true
      ∧ (let s := copying .pausing 0#32
        s.dmaBlocked 15 (64#32).toNat = none ∧ dmaDspace (s.dmaCtrl 15) = 1 ∧ (s.ch 15).prog ≤ (64#32).toNat ∧ (64#32).toNat < s.dmaLen 15
          ∧ (64#32).toNat % dmaUnit (s.dmaCtrl 15) = 0)
      ∧ (let s := copying .run 0#32
        s.dmaBlocked 15 (s.dmaLen 15) = none ∧ s.dmaBlocked 15 (128#32).toNat = none ∧ dmaCause (15#4).toNat = some 4 ∧ dmaCause (3#4).toNat = some 2
          ∧ (s.ch 15).prog ≤ (128#32).toNat ∧ (128#32).toNat ≤ s.dmaLen 15)
      ∧ ({ copying .idle 0#32 with dma := { (copying .idle 0#32).dma with dead := true } } : State).dma.dead = true
      ∧ (let s := (copying .run 0#32).setReg (dmaPage 15 + 0x0C) 0xFFFFFFFF#32
        let s := s.setReg (dmaPage 15 + 0x10) 0xFFFFFFFF#32
        s.dmaBlocked 15 (s.dmaLen 15) ≠ none)
      ∧ (let s := (copying .run 0#32).setFault blkDma { (copying .run 0#32).fault blkDma with fen := 0#32 }
        bit32 (s.fault blkDma).fen 9 = false ∧ bit32 (s.fault blkDma).fen 10 = false) := by decide +kernel

/-! ## Modular arithmetic units -/

/-- Call 1, an operation of a MAU with the given opcode, in a state of its life and placed on the given halves. -/
def mauCall (op : Byte) (st : CallSt) (l : List (Nat × Byte)) (input : Bytes) (place : List Half) : Call :=
  { call ((0, op) :: l) with st := st, input := input, place := place }

def halfAt (unit frame : Nat) : Half := { unit := unit, frame := frame, start := 0, res := none }

/-- Unit 31 in service with a call in the given half. -/
def unitOf (m : Mau) (c : Call) : State := (calls hosted [(1, some c)]).setMau 31 m

/-- A half that holds call 1. -/
def holding (staged : Bool) (keys : List MauKey) : MauHalf :=
  { MauHalf.reset with call := some 1, staged := staged, last := some 1, keys := keys }

/-- Unit 31 runs call 1 in its second half. -/
def runningUnit (keys : List MauKey) : Mau := { Mau.reset with half1 := holding true keys, run := some 1 }

theorem wit_mau_place :
    let c := mauCall 0xBA#8 .unplaced [] [] []
    let s := calls hosted [(1, some c)]
    (s.call 1 = some c ∧ c.st = .unplaced ∧ mauBlocks c.opcode = 0 ∧ s.chooseHalves c = some [halfAt 0 0]
      ∧ ((s.mau 0).half 0).busyClear = false ∧ recParity (.ok []) = false)
      ∧ ∃ b s1 s2 rand s3,
        State.readInput ((([halfAt 0 0]).foldl (fun s h => s.takeHalf 1 c h) s).setCall 1 (some { c with place := [halfAt 0 0] }))
          { c with place := [halfAt 0 0] } (.ok []) = (some b, s1)
        ∧ s1.mauAllKeys { c with place := [halfAt 0 0] } [] [halfAt 0 0] = (none, s2)
        ∧ s2.drawBlocks (mauBlocks c.opcode * [halfAt 0 0].length) = some (rand, s3) :=
  ⟨by decide +kernel, _, _, _, _, _, rfl, rfl, rfl⟩

theorem wit_mau_start :
    let m := { Mau.reset with half0 := holding true [] }
    let c := mauCall 0xBA#8 .staged [] [] [halfAt 31 0]
    let s := unitOf m c
    (s.mau 31).stagedHalf = some 0 ∧ m.run = none ∧ m.half0.aborting = false ∧ (m.half 0).busyClear = false ∧ m.down = false
      ∧ m.direct = false ∧ (m.half 0).call = some 1 ∧ s.call 1 = some c ∧ c.mauReplays = 0
      ∧ 1 ≤ (6#3).toNat ∧ (6#3).toNat ≤ 6 ∧ ({ c with mauReplays := 1 } : Call).mauReplays ≠ 0 ∧ s.heldBack c = false := by decide +kernel

theorem wit_mau_end :
    let m := runningUnit []
    let r (st : Nat) (out : Bytes) : MauRes := { status := st, early := false, out := out, check := false }
    let s (c : Call) (r : MauRes) : State := unitOf { m with res := some r } c
    let c := mauCall 0xBA#8 .staged [] [] [halfAt 31 1]
    ((s c (r 6 [])).runCall 31 = some (1, c, 1) ∧ m.abortReq = false ∧ (s c (r 6 [])).heldBack c = false
        ∧ (s c (r 6 [])).staleAtEnd c = false)
      ∧ (s c (r 0 [])).runCall 31 = some (1, c, 1) ∧ c.okeys = []
      ∧ (s c MauRes.broken).runCall 31 = some (1, c, 1) ∧ MauRes.broken.check = true
      ∧ (let c := { mauCall 0xB8#8 .staged [] [] [halfAt 31 1] with okeys := [{ num := 0, slot := 258, klen := 32 }] }
        let t : State := { s c (r 0 []) with keys := keyed.keys }
        t.runCall 31 = some (1, c, 1) ∧ (t.slot 258).klen ≤ 32 ∧ t.staleAtEnd c = false)
      ∧ (let c := mauCall 0xBA#8 .staged [] [] [halfAt 31 1, halfAt 30 0]
        (s c (r 0 [1#8])).runCall 31 = some (1, c, 1))
      ∧ (let a : HalfRes := (r 0 [2#8]).half m.half1
        let c := mauCall 0xBA#8 .staged [] [] [{ halfAt 30 0 with res := some a }, halfAt 31 1]
        (s c (r 0 [1#8])).runCall 31 = some (1, c, 1) ∧ halvesDiffer c false a ((r 0 [1#8]).half m.half1) = true) := by
  decide +kernel

theorem wit_mau_push :
    let a := (MauRes.ok [7#8]).half MauHalf.reset
    let c := { mauCall 0xBA#8 .released [] [] [{ halfAt 31 1 with res := some a }] with out := [7#8], outLen := 1 }
    let s := unitOf (runningUnit []) c
    s.call 1 = some c ∧ c.st = .released ∧ c.pushed = false ∧ isMauOp c.opcode = true ∧ c.okeys = [] ∧ s.heldBack c = false
      ∧ s.windowOk c.inst c.outAddr c.out.length true = true ∧ c.place.filterMap (·.res) = [a] := by decide +kernel

theorem wit_mau_abort :
    let c := mauCall 0xBA#8 .staged [] [] [halfAt 31 1]
    let m := { runningUnit [] with abortReq := true }
    let s := unitOf m c
    s.boot.ready = true ∧ m.run ≠ none ∧ m.abortReq = true ∧ bit32 (s.reg (0x400008 + 0x1000 * 31)) 0 = false
      ∧ s.runCall 31 = some (1, c, 1) ∧ s.heldBack c = false ∧ ({ m with run := none, cmd := some 0#64 } : Mau).cmd ≠ none
      ∧ ({ m with res := some (MauRes.full 0) } : Mau).res ≠ none := by decide +kernel

/-- R316: the first example word of a raw list, MODSET of slot 7 over one word of 64 bits. -/
def modsetWord : W64 := 0x0300000700000000#64

/-- Unit 31 runs a raw list: modulus 7 in slot 7, 5 and 6 in slots 0 and 1. -/
def rawUnit (mods : Map (Option MauMod)) (curve : Option MauCurve) : Mau :=
  let h := (((setSlotVal (holding true []) 7 1 7)))
  { Mau.reset with half0 := setSlotVal (setSlotVal h 0 1 5) 1 1 6, run := some 0, rawOk := true, mods := mods, curve := curve }

def rawList (w : W64) : Bytes := natLe 4 1 ++ natLe 8 w.toNat ++ [0xAB#8]

/-- A state in which the word is the one in hand. -/
def rawState (w : W64) : State :=
  unitOf (rawUnit [(7, some { len := 1, q := 7 })] (some { m := 7, a := 1, b := 1 })) (mauCall 0xBA#8 .staged [] (rawList w) [halfAt 31 0])

/-- A raw command with LEN 1 (field 0): D 2, A 0, B 1, M 7. -/
def rawWord (code : Nat) (d a b m imm : Nat) : W64 :=
  BitVec.ofNat 64 (code * 2 ^ 56 + d * 2 ^ 44 + a * 2 ^ 40 + b * 2 ^ 36 + m * 2 ^ 32 + imm)

def inHand (code d a b m imm : Nat) : Bool :=
  let w := rawWord code d a b m imm
  (match (rawState w).rawNext 31 with | some x => x.1 == w | none => false) && rCmd w == code
    && !((rawState w).mau 31).noModulus w

/-- R317: 5 + 6 = 4 and 5 - 6 = 6 modulo 7. -/
theorem test_raw_add_sub :
    let at_ (i : Instr) (code : Nat) : Nat := ((after i (rawState (rawWord code 2 0 1 7 0))).mau 31).val 2 1
    at_ (.rawMadd 31#5) 4 = 4 ∧ at_ (.rawMsub 31#5) 5 = 6 := by decide +kernel

/-- R317: the inverse of 5 modulo 7 is 3, and 5 to the 6th is 1. -/
theorem test_raw_exp_inv :
    let at_ (i : Instr) (w : W64) : Nat := ((after i (rawState w)).mau 31).val 2 1
    at_ (.rawMinv 31#5) (rawWord 0x0B 2 0 0 7 0) = 3 ∧ at_ (.rawMexp 31#5) (rawWord 0x0A 2 0 1 7 3) = 1 := by decide +kernel

theorem wit_raw_lists :
    (let c := mauCall 0xBA#8 .staged [] (rawList modsetWord) [halfAt 31 1]
     let s := unitOf (runningUnit []) c
     s.runCall 31 = some (1, c, 1) ∧ (s.mau 31).res = none ∧ (s.mau 31).rawOk = false ∧ c.opcode = 0xBA)
      ∧ inHand 0x01 2 0 0 0 1 ∧ inHand 0x02 2 0 0 0 1 ∧ inHand 0x03 0 0 0 7 0 ∧ inHand 0x04 2 0 1 7 0 ∧ inHand 0x05 2 0 1 7 0
      ∧ inHand 0x06 2 0 1 7 0 ∧ inHand 0x07 2 0 0 7 0 ∧ inHand 0x08 2 0 0 7 0 ∧ inHand 0x09 2 0 0 7 0 ∧ inHand 0x0A 2 0 1 7 64
      ∧ inHand 0x0B 2 0 0 7 0 ∧ inHand 0x10 0 0 1 7 0 ∧ inHand 0x11 2 0 0 7 0 ∧ inHand 0x12 2 0 0 7 0 ∧ inHand 0x13 2 0 1 7 64 := by
  decide +kernel

/-- Unit 31 in direct mode with a command in hand. -/
def directUnit (cmd : Option W64) : Mau := { Mau.reset with direct := true, cmd := cmd, opmAddr := 0x3FFC }

theorem test_opm_address_wraps :
    ((after (.mauOpmDataAccess 31#5 (some 9#32)) (ready.setMau 31 (directUnit none))).mau 31).opmAddr = 0 := by decide +kernel

theorem wit_mau_direct :
    let s (m : Mau) : State := ready.setMau 31 m
    let w := rawWord 0x03 0 0 0 7 0
    ((s Mau.reset).boot.ready = true ∧ Mau.reset.direct = false ∧ Mau.reset.stateCode = 0)
      ∧ (runningUnit []).stateCode ≠ 0 ∧ (runningUnit []).direct = false
      ∧ (directUnit none).direct = true ∧ (directUnit none).cmd = none ∧ (directUnit (some w)).cmd ≠ none
      ∧ (directUnit (some w)).directRefused w = false ∧ (directUnit (some w)).abortReq = false
      ∧ ({ directUnit (some w) with res := some (MauRes.ok []) } : Mau).res ≠ none
      ∧ (directUnit (some w)).directRefused (rawWord 0x01 2 0 0 0 1) = true
      ∧ Mau.reset.locked = false ∧ ready.lc ≠ .scrap ∧ Mau.reset.patchBuf.length < 4
      ∧ ({ Mau.reset with patchBuf := [1#32, 2#32, 3#32, 4#32] } : Mau).patchBuf = [1#32, 2#32, 3#32, 4#32]
      ∧ ({ Mau.reset with locked := true } : Mau).locked = true := by decide +kernel

def mauKey (n : Nat) (b : Bytes) : MauKey := { num := n, share0 := b, share1 := b.map fun _ => 0#8 }

/-- RSA of 16 bits and curves of one-byte fields. -/
def small : MauSize := { k := 16, f := 1, n := 1, w := 8, e := none }

/-- Unit 31 runs a macro operation of call 1 with keys in its half; entry 0 gives a curve record of one-byte values. -/
def macroState (op : Byte) (param input : Bytes) (keys : List MauKey) : State :=
  let c := { mauCall op .staged ((param.zip (List.range 16)).map fun p => (52 + p.2, p.1)) input [halfAt 31 1] with size := small }
  { unitOf (runningUnit keys) c with
    keys := { keyed.keys with slots := (0, { dfltSlot 0 with fbytes := 1, nbytes := 1 }) :: keyed.keys.slots } }

/-- What a macro operation of the small state leaves: its status, whether it ended at V, and its output. -/
def macroEnd (i : Instr) (s : State) : Option (Nat × Bool × Bytes) := ((after i s).mau 31).res.map fun r => (r.status, r.early, r.out)

/-- The curve y² = x³ + x + 1 over 7, with G = (0, 1) of order 5. -/
def smallCurve (order : Byte) : MauKey := mauKey 3 [7#8, 1#8, 1#8, 0#8, 1#8, order, 1#8]

/-- R308, R309: a signature of 0 is found at V, a private record whose p × q is not n at T_full. -/
theorem test_macro_rejections :
    macroEnd (.rsaVerify 31#5) (macroState 0xB2#8 [16#8, 0#8] [0x80#8, 1#8, 0#8, 0#8, 0#8, 3#8, 0#8, 0#8] []) = some (0x0D, true, [])
      ∧ macroEnd (.rsaSign 31#5) (macroState 0xB1#8 [16#8, 0#8] [] [mauKey 0 [3#8, 5#8, 0#8, 0#8, 0#8, 0#8, 14#8]]) = some (0x06, false, [])
      ∧ macroEnd (.ecdh 31#5) (macroState 0xB8#8 [0x80#8] [4#8, 1#8, 1#8] [mauKey 0 [2#8], smallCurve 5#8]) = some (0x06, true, []) := by
  decide +kernel

/-- R303: twice (0, 1) on the small curve is (2, 5), and its X coordinate is the shared key. -/
theorem test_ecdh_shared :
    let s := macroState 0xB8#8 [0x80#8] [4#8, 0#8, 1#8] [mauKey 0 [2#8], smallCurve 5#8]
    (ecdhRes ((s.call 1).getD (call [])) ((s.mau 31).half 1) 1).key = some [2#8] := by decide +kernel

/-- The private record of n = 15, e = 3. -/
def record : Bytes := [3#8, 5#8, 1#8, 3#8, 2#8, 0#8, 15#8, 0#8, 0#8, 0#8, 3#8]

/-- Every outcome of MauMacros that names a condition on the operands, on operands that meet it. -/
theorem wit_mau_macros :
    let c (s : State) : Call := (s.call 1).getD (call [])
    let x (s : State) : MauHalf := (s.mau 31).half 1
    let runs (s : State) (op : Nat) : Bool := (c s).opcode == op && (s.mau 31).res.isNone && (c s).size == small
      && match s.runCall 31 with | some r => r.1 == 1 && r.2.2 == 1 | none => false
    (let s := macroState 0xB1#8 [16#8, 0#8] [] [mauKey 0 record]
     runs s 0xB1 ∧ badRecord ((x s).key 0) 16 = false ∧ badRecord [3#8, 5#8, 1#8, 3#8, 2#8, 0#8, 14#8] 16 = true)
      ∧ (let s := macroState 0xB2#8 [16#8, 0#8] [0x80#8, 1#8, 0#8, 0#8, 0#8, 3#8, 0x80#8, 0#8] []
        let p := rsaPublic (c s) (x s) 16
        let sig := beNat (p.2.2.drop (hashLen (c s).hash))
        runs s 0xB2 ∧ badPublic p.1 p.2.1 16 = false ∧ sig ≠ 0 ∧ sig < p.1 ∧ badPublic 14 3 16 = true)
      ∧ (let s := macroState 0xB4#8 [16#8, 0#8] [0x80#8, 1#8, 0#8, 0#8, 0#8, 3#8] []
        let p := rsaPublic (c s) (x s) 16
        runs s 0xB4 ∧ badPublic p.1 p.2.1 16 = false ∧ (p.2.2.drop ((c s).aux % 256)).length + 2 * hashLen (c s).hash + 2 ≤ 16 / 8)
      ∧ (let s := macroState 0xB3#8 [16#8, 0#8] [0#8, 14#8] [mauKey 0 record]
        let y := beNat ((c s).input.take 2)
        runs s 0xB3 ∧ y ≠ 0 ∧ y < recN ((x s).key 0) 16 ∧ badRecord ((x s).key 0) 16 = false
          ∧ rsaPublicPow (recN ((x s).key 0) 16) (recE ((x s).key 0) 16) (rsaPrivate ((x s).key 0) 16 y) = y)
      ∧ runs (macroState 0xB0#8 [16#8, 0#8] [] []) 0xB0 ∧ runs (macroState 0xB5#8 [] [] []) 0xB5
      ∧ runs (macroState 0xB9#8 [] [] []) 0xB9
      ∧ (let s := macroState 0xB6#8 [0x80#8] [] [mauKey 0 [4#8], smallCurve 5#8]
        runs s 0xB6 ∧ badScalar (curveOf (c s) (x s) 1) (beNat ((x s).key 0)) = false
          ∧ badScalar (curveOf (c s) (x s) 1) 5 = true)
      ∧ (let s := macroState 0xB7#8 [0x80#8] [4#8, 0#8, 1#8, 1#8, 5#8] [smallCurve 5#8]
        runs s 0xB7 ∧ badQ (curveOf (c s) (x s) 1) ((c s).input.take 3) 1 = false)
      ∧ (let s (order : Byte) : State := macroState 0xB8#8 [0x80#8] [4#8, 0#8, 1#8] [mauKey 0 [order - 1#8], smallCurve order]
        let cv (o : Byte) : List Nat := curveOf (c (s o)) (x (s o)) 1
        runs (s 5#8) 0xB8 ∧ badQ (cv 5#8) (c (s 5#8)).input 1 = false ∧ badScalar (cv 5#8) 4 = false
          ∧ scaled (cv 5#8) 4 (pointOf (c (s 5#8)).input 1) = some (0, 6) ∧ resultOn (cv 5#8) (0, 6) = true
          ∧ badScalar (cv 6#8) 5 = false ∧ scaled (cv 6#8) 5 (pointOf (c (s 6#8)).input 1) = none) := by decide +kernel

/-! ## Debug readback -/

/-- A ready RAW part with its fuses loaded. -/
def opened : State := { ready with lcc := { Lcc.reset with decoded := true } }

/-- Debug of engine 31 of cluster 15: EN set, the engine in the given mode (R94). -/
def debugging (mode : EngMode) : State :=
  (opened.setCl 15 { Cluster.reset with dbgEn := true, dbgSel := 31, dbgAddr := 0x110008 }).setEng 511
    { Engine.reset with dbgOn := true, mode := mode }

/-- R100: DE_DBG_ADDR 0x110008 is the low word of s1, and an access adds 4. -/
theorem test_debug_scalar :
    let t := after (.debugDataAccess 15#4 true 7#32) (debugging .halted)
    (t.eng 511).sreg 1 = 7#64 ∧ (t.cl 15).dbgAddr = 0x11000C := by decide +kernel

theorem wit_debug_readback :
    opened.boot.ready = true ∧ opened.debugEn.getLsbD 1 = true ∧ (ready.cl 15).dbgEn = false
      ∧ ((debugging .run).cl 15).dbgEn = true ∧ (0#5).toNat ≠ ((debugging .run).cl 15).dbgSel ∧ ((debugging .run).cl 15).dbgSel < 32
      ∧ ((debugging .run).eng ((debugging .run).dbgEng 15)).dbgOn = true
      ∧ ((debugging .run).eng ((debugging .run).dbgEng 15)).mode ≠ .halted
      ∧ ((debugging .halted).eng ((debugging .halted).dbgEng 15)).mode = .halted
      ∧ ({ opened with lc := .mfg } : State).debugEn.getLsbD 1 = false
      ∧ (debugging .halted).dbgReach 15 = true ∧ (debugging .run).dbgReach 15 = false
      ∧ (ready.cl 15).inService = false ∧ ready.running 15 = 0
      ∧ ((ready.setCl 15 { Cluster.reset with selftest := 0 }).cl 15).inService = true := by decide +kernel

/-! ## Tamper -/

/-- The monitor of a ready device with some fields changed. -/
def watching (f : Tmp → Tmp) : State := { ready with tmp := f Tmp.reset }

/-- R577: the default level of a glitch on the first rail is 2, of a slow excursion 3. -/
theorem test_rail_levels :
    ((after (.railGlitch 0#2 false) ready).tmp.active.map (·.level)) = [2]
      ∧ ((after (.railSlowExcursion 0#2 false) ready).tmp.active.map (·.level)) = [3] := by decide +kernel

/-- R558: +120.0 °C does not alarm, +120.125 °C does. -/
theorem test_temperature_edge :
    (after (.tempAlarm 960#16) ready).tmp.active = [] ∧ (after (.tempAlarm 961#16) ready).tmp.active ≠ [] := by decide +kernel

/-- R562: one second of quiet frees an input, one beat less does not. -/
theorem test_rearm :
    let s (g : Nat) : State := { watching fun t => { t with stuck := 2#6 } with g := g }
    (after (.rearm 2#6) (s 39062500)).tmp.stuck = 0#6 ∧ (after (.rearm 2#6) (s 39062499)).tmp.stuck = 2#6 := by decide +kernel

theorem wit_tamper_alarms :
    ready.onMain = true ∧ ready.railQuiet 3 true = false
      ∧ 960 < (961#16).toInt ∧ (BitVec.ofInt 16 (-401)).toInt < -400 ∧ ready.tmp.has 3 = false ∧ ready.tmp.has 4 = false
      ∧ -400 ≤ (960#16).toInt ∧ (960#16).toInt ≤ 960
      ∧ (let s := watching fun t => { t with inCfg := 0xFF#32, meshEn := true }
        bit32 s.tmp.inCfg (3#3).toNat = true ∧ s.tmp.filt.getLsbD 3 = false ∧ s.tmp.stuck.getLsbD 3 = false
          ∧ s.tmp.filt.getLsbD 5 = false ∧ s.tmp.stuck.getLsbD 5 = false ∧ s.tmp.meshEn = true ∧ s.tmp.stuck.getLsbD 4 = false)
      ∧ (watching fun t => { t with stuck := 8#6 }).tmp.stuck.getLsbD 3 = true
      ∧ (let s := watching fun t => { t with active := [{ src := 8, unit := 1, level := 3 }] }
        (s.tmp.active.find? fun a => a.src == (8#4).toNat && a.unit == (1#3).toNat) = some { src := 8, unit := 1, level := 3 })
      ∧ (let s := watching fun t => { t with resp := 2, active := [{ src := 8, unit := 1, level := 1 }] }
        s.tmp.resp = 2 ∧ s.tmp.disturbed = false) := by decide +kernel

theorem wit_tamper_settings :
    lvlOk .rail 0x924924#32 = true ∧ lvlOk .env 0x24924#32 = true ∧ lvlOk .inputs 0x3000#32 = true
      ∧ lvlOk .inputs 0x5000#32 = false ∧ ready.tmpLocked = false
      ∧ ((watching fun t => { t with lock := true }).tmpLocked = true ∧ 0x3000#32 &&& lvlMask .inputs ≠ Tmp.reset.lvl .inputs)
      ∧ 1 ≤ fld 0x3E80000#32 16 10 ∧ fld 0x3E80000#32 16 10 ≤ 1000 ∧ 1 ≤ Tmp.reset.holdMs ∧ Tmp.reset.holdMs ≤ 1000 := by
  decide +kernel

theorem wit_tamper_battery :
    let s := watching fun t => { t with battery := true, inCfg := 0xFF#32, battPrev := 0x28#6 }
    let act := 0x28#6 &&& s.tmp.watchMask
    let alarms (n : Nat) : Bool := act.getLsbD n && s.tmp.battPrev.getLsbD n && !s.tmp.filt.getLsbD n && !s.tmp.stuck.getLsbD n
    s.tmp.battery = true ∧ (alarms 5 = true ∧ s.tmp.inLevel 5 = 4) ∧ alarms 3 = true
      ∧ s.tmp.stuck.getLsbD 4 = false ∧ fld s.tmp.inCfg 0 4 ≠ 0 := by decide +kernel

theorem wit_evidence :
    let s : State := { watching fun t => { t with evid := 15 } with lcc := { Lcc.reset with decoded := true } }
    s.tmp.evid ≠ 0 ∧ s.onMain = true ∧ s.lcc.decoded = true ∧ s.otpFree = true := by decide +kernel

/-! ## Life cycle -/

/-- A package of the given length at address 0. -/
def packageAt (len : Nat) : Bytes := natLe 8 0 ++ natLe 4 len

/-- A device in a state with a nonce held and a request in the mailbox of instance 0. -/
def requested (cmd : Byte) (len : Nat) (lc : LcState) : State :=
  let s := mailed cmd (packageAt len)
  { s with lc := lc, lcc := { s.lcc with decoded := true, nonce := some (List.replicate 32 3#8) } }

/-- A package for a target, with the target identity and the nonce, and nothing but zero bytes else. -/
def package (target : Byte) : Bytes :=
  (natLe 4 0x314C4B41 ++ [1#8, 0#8, target, 0#8] ++ (requested 0x31#8 12183 .test).targetId ++ List.replicate 32 3#8)
    ++ List.replicate 12111 0#8

/-- An OWNED part whose key authority has public keys of zeros. -/
def ownedPart : State :=
  let s := requested 0x31#8 12183 .owned
  { s with otp := { s.otp with kaDigest := sha3_256 (List.replicate 2592 0#8 ++ List.replicate 97 0#8) } }

theorem read_whole (s : State) (i a n : Nat) (b : Bytes) (hw : s.windowOk i a n false = true) (hl : b.length = n) :
    s.readBuf i a n (.ok b) = (some b, s) := by
  subst hl
  simp [State.readBuf, hw, padTo]

/-- The request for SCRAP from TEST and the one for DEBUG_KILL from OWNED, with signatures that verify. -/
theorem wit_lc_transition (hm : ∀ a b c, Config.makerVerify a b c = true)
    (hq : ∀ a b c d, Config.mlDsa87Verify a b c d = true) (he : ∀ a b c, Config.ecdsaP384Verify a b c = true) :
    (let s := requested 0x31#8 12183 .test
     Asked s 0 0x31 ∧ s.readBuf 0 0 12183 (.ok (package 5#8)) = (some (package 5#8), s) ∧ s.packageRefusal (package 2#8) none = some 2)
      ∧ (requested 0x31#8 12183 .test).packageRefusal (package 5#8) (some (List.replicate 32 3#8)) = none
      ∧ targetState 5 = some .scrap ∧ targetState 0x10 = none
      ∧ ownedPart.packageRefusal (package 0x10#8) (some (List.replicate 32 3#8)) = none := by
  have hn (s : State) (b : Bytes) (m k : Bool) : s.packageOk b m k none = false := by simp [State.packageOk]
  refine ⟨⟨⟨by decide +kernel, by decide +kernel⟩, read_whole _ _ _ _ _ (by decide +kernel) (by decide +kernel), ?_⟩, ?_, rfl,
    rfl, ?_⟩
  · simp only [State.packageRefusal, hn]; decide +kernel
  · have ht : pkg (package 5#8) 8 32 = (requested 0x31#8 12183 .test).targetId := rfl
    have h1 : packageLayoutOk (package 5#8) true false = true := by decide +kernel
    have h2 : (requested 0x31#8 12183 .test).packageSigned (package 5#8) true false = true := by
      simp only [State.packageSigned, hm]; rfl
    have h3 : (requested 0x31#8 12183 .test).packageOk (package 5#8) true false (some (List.replicate 32 3#8)) = true := by
      simp only [State.packageOk, h1, h2, ht, BEq.rfl]; decide +kernel
    have h4 : leAt (package 5#8) 6 1 = 5 := by decide +kernel
    have h5 : authority (requested 0x31#8 12183 .test).lc 5 = some (true, false) := rfl
    simp only [State.packageRefusal, h4, h5, h3]; decide +kernel
  · have hi : ownedPart.otp.krMfg = none := rfl
    have ho : (requested 0x31#8 12183 .test).otp.krMfg = none := rfl
    have hp : pkg (package 0x10#8) 8 32 = (requested 0x31#8 12183 .test).targetId := rfl
    have ht : pkg (package 0x10#8) 8 32 = ownedPart.targetId := by
      rw [hp]
      unfold State.targetId State.identitySeed
      rw [hi, ho]
    have h1 : packageLayoutOk (package 0x10#8) false true = true := by decide +kernel
    have hk (k n : Nat) (h : n ≤ 12111 - k) : pkg (package 0x10#8) (72 + k) n = List.replicate n 0#8 :=
      by unfold pkg package; exact zeros_behind _ 72 12111 k n rfl h
    have h2 : ownedPart.packageSigned (package 0x10#8) false true = true := by
      have hd : ownedPart.otp.kaDigest = sha3_256 (List.replicate 2592 0#8 ++ List.replicate 97 0#8) := rfl
      have ho : ownedPart.lc = .owned := rfl
      simp only [State.packageSigned, authorityOk, hq, he, hk 72 2592 (by omega), hk 2664 97 (by omega), ho, if_true, hd,
        beq_self_eq_true, Bool.not_true, Bool.not_false, Bool.false_or, Bool.true_or, Bool.and_self, Bool.and_true]
    have h3 : ownedPart.packageOk (package 0x10#8) false true (some (List.replicate 32 3#8)) = true := by
      simp only [State.packageOk, h1, h2, ht, BEq.rfl]; decide +kernel
    have h4 : leAt (package 0x10#8) 6 1 = 16 := by decide +kernel
    have h5 : authority ownedPart.lc 16 = some (false, true) := rfl
    simp only [State.packageRefusal, h4, h5, h3]; decide +kernel

/-- A transition to a target in a phase, with the hold-up reserve. -/
def moving (target phase vhold : Nat) (code : BitVec 64) (wait : Option Nat) : State :=
  { serves with lcc := { Lcc.reset with
      decoded := true, vhold := vhold, waitReset := wait
      trans := some {
        target := target, code := code, n := 8, phase := phase, since := 0, viaMbx := true, config := 0x0F#8, power := 40#8
        kaDigest := 1#256, ownerDigest := 2#256, serial := 3#64 } } }

/-- R516: copy A short of reserve stops the transition with the old state in force. -/
theorem test_copy_a_reserve :
    let t := after .lcCopyDone (moving 2 3 1299 0x0000333333333333#64 none)
    t.otp.lcA = 0x0000333333333333#64 ∧ t.otp.lcB = 0#64 ∧ t.boot.cause = 5 ∧ t.lcc.trans = none := by decide +kernel

theorem wit_lc_root (x : Trans) (h : x.target = 1 ∨ x.target = 2 ∨ x.target = 3 ∨ x.target = 4 ∨ x.target = 5) :
    ∃ u, serves.rootStep x = some u := by
  unfold State.rootStep
  rcases h with h | h | h | h | h <;> rw [h] <;> exact ⟨_, rfl⟩

theorem wit_lc_phases :
    ((moving 3 2 0 0#64 none).lcc.trans.map fun x => (x.phase, x.target)) = some (2, 3)
      ∧ ((moving 2 3 1300 0#64 none).lcc.trans.map fun x => decide (50 * x.n + 900 ≤ 1300)) = some true
      ∧ (moving 2 3 1299 0#64 none).lcc.vhold < 50 * 8 + 900 ∧ (moving 2 3 1299 0#64 none).lcc.waitReset = none
      ∧ ((moving 2 7 0 0#64 (some 4)).lcc.trans.map (·.phase)) = some 7 ∧ (moving 2 7 0 0#64 (some 4)).lcc.waitReset = some 4
      ∧ (let s : State := { opened with lc := .raw }
        s.debugEn.getLsbD 0 = true ∧ s.lcc.trans = none ∧ s.lc = .raw ∧ s.transCheck 1 = some 3
          ∧ ({ s with lcc := { s.lcc with vhold := 16000 } } : State).transCheck 1 = none) := by decide +kernel

/-- A debug response for both enables. -/
def response : Bytes :=
  (requested 0x32#8 4707 .mfg).targetId ++ List.replicate 32 3#8 ++ natLe 8 0x0000333333333333 ++ [7#8] ++ List.replicate 4634 0#8

theorem wit_debug_unlock (hm : ∀ a b c, Config.makerVerify a b c = true) :
    let s := requested 0x32#8 4707 .mfg
    Asked s 0 0x32 ∧ s.readBuf 0 0 4707 (.ok response) = (some response, s)
      ∧ s.debugScope response (some (List.replicate 32 3#8)) = some 7#3 ∧ s.debugScope [] none = none := by
  refine ⟨⟨by decide +kernel, by decide +kernel⟩, read_whole _ _ _ _ _ (by decide +kernel) (by decide +kernel), ?_, ?_⟩
  · have ht : pkg response 0 32 = (requested 0x32#8 4707 .mfg).targetId := rfl
    have h1 : response.length = 4707 := by decide +kernel
    have h2 : some (List.replicate 32 3#8) = some (pkg response 32 32) := by decide +kernel
    have h3 : leAt response 64 8 = (requested 0x32#8 4707 .mfg).lc.word.toNat := by decide +kernel
    have h4 : leAt response 72 1 = 7 := by decide +kernel
    have h5 : allZero (pkg response 73 7) = true := by decide +kernel
    have h6 : BitVec.ofNat 3 7 &&& ~~~(requested 0x32#8 4707 .mfg).debugAllowed = 0#3 := by decide +kernel
    simp only [State.debugScope, ht, h1, h2, h3, h4, h5, h6, hm]
    simp
  · decide +kernel

theorem wit_life_cycle_commands :
    Asked (mailed 0x30#8 []) 0 0x30 ∧ (mailed 0x30#8 []).ent.mode ≠ .halted ∧ (∃ w u, (mailed 0x30#8 []).supWords 8 2 = some (w, u))
      ∧ Asked (mailed 0x38#8 []) 0 0x38 ∧ (mailed 0x38#8 []).otpFree = true
      ∧ (mailed 0x38#8 []).lc = .raw ∧ (requested 0x38#8 0 .rma).boot.slot ≠ 2
      ∧ opened.debugEn.getLsbD 0 = true ∧ ({ opened with lc := .rma } : State).debugEn = opened.debugEn
      ∧ ({ opened with lc := .owned } : State).debugEn.getLsbD 2 = false :=
  ⟨⟨by decide +kernel, by decide +kernel⟩, by decide +kernel, ⟨_, _, rfl⟩, ⟨by decide +kernel, by decide +kernel⟩,
    by decide +kernel, by decide +kernel, by decide +kernel, by decide +kernel, by decide +kernel, by decide +kernel⟩

/-! ## Bring-up -/

/-- Bring-up in a phase, the fuses loaded. -/
def bringing (phase : Nat) : State :=
  { State.reset with
    boot := { Boot.reset with perst := false, phase := phase }
    lcc := { Lcc.reset with decoded := true } }

/-- Bring-up in a phase, DRAM trained and every cluster tested. -/
def tested (phase : Nat) : State :=
  (List.range 16).foldl (fun s n => s.setCl n { s.cl n with selftest := 0 })
    { bringing phase with boot := { (bringing phase).boot with dramDone := true } }

/-- R542: the clusters' results may come before phase 8, and phase 9 follows the known-answer tests then. -/
theorem test_clusters_tested_first :
    (after (.knownAnswerTests true true 0#32) (tested 7)).boot.phase = 9 := by decide +kernel

/-- R542: the phases of a RAW part with an empty flash and no card end in a halt of code 1. -/
theorem test_no_firmware : (after .slotSelection (bringing 3)).boot.haltCode = 1 := by decide +kernel

theorem wit_resets :
    State.reset.boot.power = true ∧ ready.boot.perst = false ∧ State.reset.boot.perst = true ∧ ready.lcc.trans = none
      ∧ (after .batteryEnter ready).boot.power = false ∧ (moving 2 2 0 0#64 none).lcc.trans ≠ none
      ∧ (moving 2 2 0 0#64 none).boot.ready = true
      ∧ (let s : State := { bringing 3 with boot := { (bringing 3).boot with image := [0#8] } }
        s.booting = true ∧ 3 ≤ s.boot.phase ∧ s.boot.slot = 0 ∧ s.boot.image ≠ [] ∧ s.boot.rootWait = none) := by decide +kernel

theorem wit_phases :
    (∀ n, n < 10 → (bringing n).booting = true ∧ (bringing n).boot.phase = n ∧ (bringing n).lcc.decoded = true)
      ∧ (bringing 2).otp.state = some .raw
      ∧ ({ bringing 2 with otp := { Otp.reset with lcA := 1#64, lcB := 2#64 } } : State).otp.state = none
      ∧ (bringing 3).boot.sramDone = false ∧ (bringing 3).boot.dramDone = false ∧ (bringing 3).boot.slot = 0
      ∧ (bringing 3).boot.image = [] ∧ (bringing 3).sd.present = false
      ∧ ({ bringing 3 with sd := { Sd.reset with present := true } } : State).sd.present = true
      ∧ (bringing 4).imageSigned [] = true
      ∧ (bringing 5).bbramLost = true ∧ (bringing 5).lc = .raw
      ∧ ({ bringing 5 with bbram := { Bbram.reset with valid := true } } : State).bbramLost = false
      ∧ (let s : State := { bringing 5 with lc := .rma }
        s.bbramLost = true ∧ s.drawRoot.isNone = true ∧ s.entDead = false
          ∧ ({ s with ent := { s.ent with katFail := true } } : State).entDead = true)
      ∧ (let s : State := { bringing 7 with boot := { (bringing 7).boot with dramDone := true } }
        s.boot.phase = 7 ∧ s.boot.dramDone = true)
      ∧ ((bringing 8).cl 15).selftest = 0xFF ∧ ((bringing 6).cl 0).selftest = 0xFF
      ∧ (∀ j, j < 16 → ((tested 8).cl j).selftest ≠ 0xFF) ∧ (tested 7).booting = true ∧ (tested 7).boot.dramDone = true
      ∧ (let s : State := { bringing 9 with boot := { (bringing 9).boot with sramDone := true, dramDone := true, evrDone := true } }
        s.booting = true ∧ s.boot.evrDone = true ∧ s.boot.sramDone = true ∧ s.boot.dramDone = true) := by decide +kernel

theorem wit_root_drawn :
    let s : State := { bringing 5 with lc := .rma, ent := serves.ent }
    s.bbramLost = true ∧ ∃ r u, s.drawRoot = some (r, u) := ⟨by decide +kernel, _, _, rfl⟩

/-- SHA3-512 of the empty string, as FIPS 202's example values give it. -/
def emptyDigest : Bytes :=
  natBe 64 0xa69f73cca23a9ac5c8b567dc185a756e97c982164fe25859e0d1dcc1475c80a615b2123af1f5f94c11e3e9402c3ac558f500199d95b6d3e301758586281dcd26

theorem test_sha3_512_empty : sha3_512 [] = emptyDigest := by decide +kernel

/-- A header of an image of a kind and security version, with an empty body. -/
def image (kind svn : Byte) : Bytes :=
  natLe 4 0x31464B41 ++ [1#8, 0#8, kind, 0#8] ++ natLe 4 7 ++ [svn] ++ List.replicate 19 0#8 ++ emptyDigest
    ++ List.replicate 4640 0#8

/-- An image whose digest passes is firmware for a RAW part, and one whose digest does not is none. -/
theorem wit_images :
    let a : State := { bringing 3 with nor := { Nor.reset with slotA := image 1#8 3#8, slotB := image 1#8 2#8 } }
    a.firmwareOk a.nor.slotA = true ∧ imgSvn a.nor.slotB < imgSvn a.nor.slotA ∧ a.firmwareOk [] = false
      ∧ ready.imageAccepted (image 1#8 3#8) = true ∧ ready.imageAccepted (image 2#8 3#8) = true
      ∧ ready.imageAccepted [] = false ∧ leAt (image 2#8 3#8) 6 1 = 2 := by
  have f : imageFormOk (image 1#8 3#8) 1 64 0x100000 = true ∧ imageFormOk (image 2#8 3#8) 2 32 0x10000 = true := by
    have h1 : imgBody (image 1#8 3#8) = [] := by decide +kernel
    have h2 : imgBody (image 2#8 3#8) = [] := by decide +kernel
    simp only [imageFormOk, h1, h2, test_sha3_512_empty]; decide +kernel
  have g (k a b : Nat) : imageFormOk [] k a b = false := by simp [imageFormOk, leAt, leNat]
  refine ⟨?_, by decide +kernel, by simp [State.firmwareOk, g], ?_, ?_, by simp [State.imageAccepted, State.firmwareOk,
    State.patchOk, g], by decide +kernel⟩
  · simp only [State.firmwareOk, f.1]; decide +kernel
  · simp only [State.imageAccepted, State.firmwareOk, f.1]; decide +kernel
  · simp only [State.imageAccepted, State.patchOk, f.2, Bool.or_eq_true]
    exact Or.inr (by decide +kernel)

/-- An image without a signature stops a part in MFG. -/
theorem wit_unsigned (h : ∀ a b c, Config.makerVerify a b c = false) :
    let s : State := { bringing 4 with lc := .mfg }
    s.imageSigned s.boot.image = false := by
  simp only [State.imageSigned, h]
  decide +kernel

/-! ## Faults, recorder, governor -/

/-- An occurrence of type 0x10 with two words of body. -/
def occurrence : Occurrence := { type := 0x10, flags := 0, body := natLe 4 7 ++ natLe 4 8, rep := 0, opsec := 3 }

def recording (l : List Occurrence) : State := { ready with evr := { Evr.reset with restored := true, waiting := l } }

/-- A second occurrence waits. -/
def again (s : State) : State := { s with evr := { s.evr with waiting := [occurrence] } }

/-- R600: the second occurrence of a record raises its REPEAT and makes no new one. -/
theorem test_record_repeats :
    let t := after (.evrRecordWrite none) (again (after (.evrRecordWrite none) (recording [occurrence])))
    t.evr.recs.length = 1 ∧ (t.evr.recs.map fun r => recRepeat (t.evr.bytesOf r)) = [1] := by decide +kernel

theorem wit_fault_commands :
    ready.boot.ready = true ∧ (56#6).toNat < 58 ∧ (56#6).toNat ≠ blkTmp ∧ (56#6).toNat ≠ blkSup
      ∧ (∃ b : BitVec 6, b.toNat = blkTmp ∧ BitVec.ofNat 32 (2 ^ 12) = 0x1000#32 ∧ ready.tmp.forceLevel 12 = some 3)
      ∧ (∃ b : BitVec 6, b.toNat = blkSup ∧ ready.lcc.trans = none)
      ∧ ({ ready with boot := { ready.boot with dramDone := true } } : State).boot.dramDone = true := by
  refine ⟨by decide, by decide, by decide, by decide, ⟨BitVec.ofNat 6 blkTmp, by decide, by decide, by decide +kernel⟩,
    ⟨BitVec.ofNat 6 blkSup, by decide, by decide⟩, by decide⟩

theorem wit_recorder :
    (let s := recording [occurrence]
     s.evr.restored = true ∧ s.evr.waiting = [occurrence] ∧ s.evr.ringOk = true ∧ s.evr.newest = none ∧ s.evr.lgUsed < 16)
      ∧ (let repeating := again (after (.evrRecordWrite none) (recording [occurrence]))
        match repeating.evr.newest with
        | some r => r.type == occurrence.type && (recBody (repeating.evr.bytesOf r)).take 4 == occurrence.body.take 4
            && decide (recRepeat (repeating.evr.bytesOf r) < 0xFFFF) && decide (20 ≤ r.len)
            && decide (recRepeat (repeating.evr.bytesOf r) + 1 + occurrence.rep ≤ 0xFFFF)
        | none => false) = true
      ∧ (let s : State := { recording [occurrence] with evr := { (recording [occurrence]).evr with ringOk := false, lgUsed := 16 } }
        s.evr.ringOk = false ∧ 16 ≤ s.evr.lgUsed)
      ∧ (recording []).evr.norOk = true ∧ (recording []).evr.ckptBusy = false ∧ (recording []).evr.ckptReq = false
      ∧ (after .checkpointStart (recording [])).evr.ckptBusy = true
      ∧ ((bringing 6).booting = true ∧ 6 ≤ (bringing 6).boot.phase ∧ (bringing 6).boot.evrDone = false)
      ∧ (let s : State := { ready with evr := { Evr.reset with resetWait := [(559, 0)] } }
        s.evr.resetWait = [(559, 0)] ∧ s.lcc.trans = none) := by decide +kernel

/-- Every cluster at a power-cap step. -/
def capped (step : Nat) (other : Option (Nat × Nat)) (bulk : Bool) : State :=
  { ready with
    sch := { ready.sch with holdBulk := bulk }
    clusters := (List.range 16).map fun n => (n, { Cluster.reset with capStep := match other with
      | some (c, k) => if n = c then k else step
      | none => step }) }

theorem wit_governor :
    ready.boot.power = true ∧ ready.boot.perst = false ∧ ¬ 100 * ready.powerLimit < (7800#16).toNat
      ∧ 100 * ready.powerLimit < (7801#16).toNat
      ∧ (let s := capped 1 (some (0, 0)) false
        (s.cl 0).capStep = 0 ∧ ∀ j, 0 < j → j < 16 → (s.cl j).capStep ≠ 0)
      ∧ (let s := capped 2 (some (15, 1)) false
        (∀ j, j < 16 → (s.cl j).capStep ≠ 0) ∧ (s.cl 15).capStep = 1 ∧ ∀ j, 15 < j → j < 16 → (s.cl j).capStep ≠ 1)
      ∧ (∀ j, j < 16 → 2 ≤ ((capped 2 none false).cl j).capStep) ∧ (capped 2 none false).sch.holdBulk = false
      ∧ (∀ j, j < 16 → 2 ≤ ((capped 2 none true).cl j).capStep)
      ∧ (capped 2 none true).sch.holdBulk = true ∧ (capped 2 none true).sch.holdNormal = false
      ∧ (let s : State := { ready with gov := { ready.gov with lowSince := some 0, acts := [.bulk] } }
        s.gov.lowSince = some 0 ∧ s.gov.acts = [.bulk]) := by
  have h (s : State) (p : Nat → Prop) [DecidablePred p] : (∀ j, 0 < j → j < 16 → p j) ↔ ∀ j, j < 16 → 0 < j → p j :=
    ⟨fun f j a b => f j b a, fun f j a b => f j b a⟩
  have g (p : Nat → Prop) : (∀ j, 15 < j → j < 16 → p j) ↔ True := ⟨fun _ => trivial, fun _ j a b => by omega⟩
  simp only [h ready, g]
  decide +kernel

/-! ## Card and management port -/

/-- A journal entry of one payload byte 9: the bytes that are not 0, DIGEST as given, and the CRC-32 of header and trailer as
zlib computes them (R620). -/
def partitionOf (digest crc trailer : Bytes) : List (Nat × Byte) :=
  let digests (o : Nat) : List (Nat × Byte) := (List.range digest.length).map fun n => (o + n, digest.getD n 0#8)
  let crcs (o : Nat) (b : Bytes) : List (Nat × Byte) := (List.range 4).map fun n => (o + n, b.getD n 0#8)
  [(0, 65#8), (1, 75#8), (2, 74#8), (3, 49#8), (4, 1#8), (6, 1#8), (8, 5#8), (12, 1#8), (16, 1#8)] ++ digests 32 ++ crcs 508 crc
  ++ [(512, 9#8), (1024, 65#8), (1025, 75#8), (1026, 74#8), (1027, 69#8), (1028, 1#8), (1030, 1#8), (1032, 5#8), (1036, 1#8),
   (1040, 1#8)] ++ digests 1056 ++ crcs 1532 trailer

/-- SHA3-256 of the byte 9, as OpenSSL computes it. -/
def nineDigest : Bytes := natBe 32 0x8bf02b8b238233453488311be9b316e58ab7e1356ce948cb90dfef1af56992eb

def partition : List (Nat × Byte) := partitionOf nineDigest [254#8, 53#8, 107#8, 34#8] [22#8, 95#8, 163#8, 81#8]

/-- The same entry with a DIGEST of zeros. -/
def corrupt : List (Nat × Byte) := partitionOf [] [177#8, 3#8, 104#8, 221#8] [89#8, 105#8, 160#8, 174#8]

/-- A card that holds the partition and five blocks more, and a message in the mailbox of instance 0. -/
def card (job : Option SdJob) : Sd :=
  { Sd.reset with
    present := true, ready := true, mode := 3, part := partition, blocks := 8
    job := job }

def carded (cmd : Byte) (payload : Bytes) (job : Option SdJob) : State := { mailed cmd payload with sd := card job }

/-- The entry of the partition. -/
def entry5 : JEntry := { jseq := 5, kind := 1, payLen := 1, block := 0, payBlocks := 1 }

/-- R621: the journal of the partition is its one entry, and ends behind it. -/
theorem journal_of_one : (card none).journal = ([entry5], 3) := by
  decide +kernel

theorem digest_passes : (card none).digestOk entry5 = true := by decide +kernel

theorem digest_fails : ({ card none with part := corrupt } : Sd).digestOk entry5 = false := by decide +kernel

theorem find_one (d : Sd) (e : JEntry) (n : Nat) (h : d.journal = ([e], n)) :
    d.find e.jseq = (if d.digestOk e then (0, d.payload e) else (6, [])) ∧ d.find (e.jseq + 1) = (5, []) := by
  simp [Sd.find, h]

theorem room_of (d : Sd) (l : List JEntry) (n k : Nat) (h : d.journal = (l, n)) : d.journal.2 + k + 2 = n + k + 2 := by simp [h]

theorem wit_card :
    (Asked (carded 0x40#8 [] none) 0 0x40 ∧ Asked (carded 0x44#8 [] none) 0 0x44)
      ∧ (Asked (carded 0x41#8 buffer none) 0 0x41 ∧ (carded 0x41#8 buffer none).windowOk 0 0 16 true = true)
      ∧ (Asked (carded 0x42#8 (natLe 4 5 ++ buffer) none) 0 0x42 ∧ (card none).find 5 = (0, [9#8]) ∧ (card none).find 6 = (5, []))
      ∧ (let s := carded 0x43#8 ([3#8, 0#8, 0#8, 0#8] ++ natLe 8 0 ++ natLe 4 1) none
        Asked s 0 0x43 ∧ 1 ≤ leAt (s.inst 0).mbx.payload 0 1 ∧ leAt (s.inst 0).mbx.payload 0 1 ≤ 3
          ∧ s.sdRetune.readBuf 0 0 1 (.ok [7#8]) = (some [7#8], s.sdRetune))
      ∧ (card none).journal.2 + 1 + 2 ≤ (card none).blocks
      ∧ (card none).blocks < (card none).journal.2 + 4 + 2 := by
  have hj := find_one (card none) entry5 3 journal_of_one
  have hp : rdBytes (card none).part 512 1 = [9#8] := by decide +kernel
  unfold Asked
  refine ⟨by decide +kernel, by decide +kernel, ⟨by decide +kernel, ?_, ?_⟩,
    ⟨by decide +kernel, by decide +kernel, by decide +kernel, rfl⟩, ?_, ?_⟩
  · exact hj.1.trans ((if_pos digest_passes).trans (congrArg (Prod.mk 0) hp))
  · exact hj.2
  · exact Nat.le_trans (Nat.le_of_eq (room_of (card none) [entry5] 3 1 journal_of_one)) (by decide)
  · exact Nat.lt_of_lt_of_eq (by decide : 8 < 3 + 4 + 2) (room_of (card none) [entry5] 3 4 journal_of_one).symm

/-- An entry whose DIGEST does not match its payload. -/
theorem wit_card_corrupt : ({ card none with part := corrupt } : Sd).find 5 = (6, []) :=
  (find_one { card none with part := corrupt } entry5 3 (by decide +kernel)).1.trans (if_neg (by rw [digest_fails]; decide))

theorem wit_card_events :
    ready.boot.power = true ∧ true ≠ ready.sd.present
      ∧ (let s : State := { ready with sd := { Sd.reset with present := true } }
        s.sd.present = true ∧ s.sd.ready = false ∧ s.sd.refused = false)
      ∧ (let s := carded 0#8 [] (some { owed := some 0, kind := 1, jseq := 6, blocks := [(3, [1#8]), (4, [2#8])] })
        (s.inst 0).mbx.busy = true ∧ (s.inst 0).mbx.answer = none ∧ s.sd.present = true)
      ∧ (carded 0x40#8 [] none).sdReading = true
      ∧ (Sd.reset.present = false ∧ ({ Sd.reset with present := true, refused := true } : Sd).refused = true) := by decide +kernel

theorem wit_fw_write :
    (let s := mailed 0x39#8 ([0#8] ++ List.replicate 7 0#8 ++ natLe 8 0 ++ natLe 4 1)
     Asked s 0 0x39 ∧ leAt (s.inst 0).mbx.payload 0 1 = 0 ∧ s.readBuf 0 0 1 (.ok [7#8]) = (some [7#8], s))
      ∧ (let s := carded 0x39#8 ([1#8] ++ List.replicate 3 0#8 ++ natLe 4 5 ++ List.replicate 12 0#8) none
        Asked s 0 0x39 ∧ leAt (s.inst 0).mbx.payload 0 1 = 1 ∧ leAt (s.inst 0).mbx.payload 4 4 = 5) := by
  unfold Asked
  exact ⟨⟨by decide +kernel, by decide +kernel, rfl⟩, by decide +kernel⟩

/-- A ready device with both buses of the management port enabled. -/
def managed : State :=
  { ready.setReg 0xD00004 7#32 with
    boot := { ready.boot with phase := 9 }
    lcc := { Lcc.reset with decoded := true }
    ent := { Ent.reset with started := true }
    evr := { Evr.reset with restored := true } }

theorem wit_management :
    managed.boot.power = true ∧ managed.boot.perst = false ∧ (∀ c ∈ [1, 2, 3, 4, 5, 0x10, 0x11, 0x12], managed.mgtOpen c = true)
      ∧ managed.busOk .i3c = true ∧ managed.busOk (.smbus true) = true ∧ managed.busOk (.smbus false) = false
      ∧ managed.lcc.decoded = true ∧ managed.ent.started = true ∧ managed.evr.restored = true
      ∧ bit32 (managed.reg 0xD00004) 2 = true ∧ managed.mgt.attest ≠ 1 ∧ (List.replicate 32 0#8 : Bytes).length = 32
      ∧ ({ managed.mgt with attest := 2 } : Mgt).attest = 2 ∧ managed.mgtOpen (0x13#8).toNat = false
      ∧ bit32 (managed.reg 0xD00004) 1 = true ∧ ({ managed.mgt with attest := 1 } : Mgt).attest = 1 := by decide +kernel

/-! ## Registers, and the rules that every command keeps -/

/-- R15: ID of the device at offset 0 reads the same to the Manager and the Supervisor. -/
theorem test_register_read : (after (.registerRead .manager 0#26) ready).rdata = (after (.registerRead .supervisor 0#26) ready).rdata := by
  decide +kernel

theorem wit_registers :
    State.reset.boot.ready = false ∧ ready.boot.ready = true ∧ ready.pfView 0x300000 = none ∧ 14#4 ≠ 15#4
      ∧ (match ready.pfView 0 with | some v => (v.rw ||| v.w1) &&& v.m == 0#32 | none => false) = true
      ∧ (0x100020#26).toNat / 4 * 4 = 0x100020 ∧ (0x104#26).toNat / 4 * 4 = 0x104
      ∧ (0xB018BC#26).toNat / 4 * 4 = 0xB01000 + 4 * 559 ∧ (0xA0002C#26).toNat / 4 * 4 = 0xA0002C
      ∧ PageOpen hosted (1#8).toNat ∧ 1#8 ≠ 0#8 ∧ (0x1F000#26).toNat / 4 * 4 = 0x10000 + 0x1000 * 15
      ∧ hosted.present (200#8).toNat = false
      ∧ (ready.readActs false 0).isNone = true ∧ isDbgReg 0 = false ∧ (ready.pfView 0).isSome = true
      ∧ (ready.readActs true 0).isNone = true ∧ (ready.readActs false 0x300000).isNone = true ∧ earlyRead 0x100004 = false
      ∧ (0x100008#26).toNat / 4 * 4 = 0x100008 ∧ (hosted.pageView 1 4).isSome = true := by
  unfold PageOpen
  decide +kernel

theorem wit_idle_step : State.reset.pending = [] := rfl

theorem wit_canonical : State.reset.Canonical := ⟨by decide, by decide, by decide⟩

/-- Every idle step is a step, so the two statements about every step meet one here. -/
theorem wit_any_step : ∃ t, step State.reset = .next t := ⟨_, rfl⟩

/-! ## The microcode sequencer -/

/-- A microword: NEXT, SEQ, COND, CNT, no SP and no datapath bits (R331). -/
def microword (next seq cond cnt : Nat) : BitVec 160 := BitVec.ofNat 160 (next * 2 ^ 147 + seq * 2 ^ 144 + cond * 2 ^ 140 + cnt * 2 ^ 138)

/-- Unit 31 at word 3 of patch RAM. -/
def sequencing (w : BitVec 160) (stack loops : List Nat) : State :=
  ready.setMau 31 { Mau.reset with uon := true, uaddr := 0x1003, patch := [(3, w)], stack := stack, loops := loops }

/-- R331: CALL goes to NEXT and RETURN to the word behind it; LOOP with the counter at 1 falls through. -/
theorem test_sequencer :
    let t := (sequencing (microword 0x123 3 0 0) [] [0, 0, 0, 0]).microStep 31
    (t.mau 31).uaddr = 0x123 ∧ (t.mau 31).stack = [0x1004] := by decide +kernel

/-- One word for every SEQ, and each condition under which IdleStepIsOneBeat says what follows. -/
theorem wit_sequencer :
    (∀ x ∈ [(0, 0), (1, 0), (2, 0), (2, 4), (3, 0), (4, 0), (5, 0), (6, 0), (7, 0)],
      let w := microword 0x123 x.1 x.2 3
      let s := sequencing w [0x40] [0, 0, 0, 2]
      (s.mau 31).uon = true ∧ (s.mau 31).abortReq = false ∧ s.microFetch 31 (s.mau 31).uaddr = some w ∧ uSeq w = x.1
        ∧ uCond w = x.2 ∧ uNext w = 0x123 ∧ uCnt w = 3 ∧ (s.mau 31).loop 3 = 1 + 1 ∧ (s.mau 31).stack.length < 8
        ∧ (s.mau 31).stack = 0x40 :: [])
      ∧ 8 ≤ (List.replicate 8 0x40).length
      ∧ (let s := (sequencing 0#160 [] []).setMau 31 { Mau.reset with uon := true, uaddr := 0x1400 }
        (s.mau 31).uon = true ∧ 0x1400 ≤ (s.mau 31).uaddr)
      ∧ (let s := ((sequencing 0#160 [] []).setReg (0x400044 + 0x1000 * 31) 0x80050003#32).setMau 31
          { Mau.reset with uon := true, uaddr := 5 }
        let r (k : Nat) : W32 := s.reg (0x400040 + 0x1000 * 31 + 4 * k)
        bit32 (r 1) 31 = true ∧ fld (r 1) 16 12 = (s.mau 31).uaddr ∧ bit32 (r 0) 31 = false) := by decide +kernel

/-- With no unit on, as at reset, an idle beat moves time alone. -/
theorem wit_idle_units : ∀ u, u < 32 → (State.reset.mau u).uon = false := by decide +kernel

/-! ## Clauses of other statements at their own states -/

/-- VLDFF whose first element lies outside the map. -/
theorem wit_first_fault_stop :
    let f : VM := { vm0 with pd := 1#3 }
    let e := { engine with sregs := [(1, 0x80000#64)] }
    0 < e.limit 32 false ∧ e.dmemDenied (vmBase f e) (vmBytes f) (vmBytes f) false = some .addrRange := by decide +kernel

/-- A queue of a FROZEN instance that recorded a bad doorbell (R376). -/
theorem wit_recorded_doorbells :
    let s (b : List (Bool × BitVec 16)) : State :=
      (hosted.setInst 1 { hosted.inst 1 with st := .frozen, freeze := true }).setQueue 1 15 { hosted.queue 1 15 with recBad := b }
    (∀ b ∈ [[(false, 17#16)], [(true, 9#16)]], let x := (s b).inst 1
      x.freeze = true ∧ x.st = .frozen ∧ x.restored = false ∧ ((s b).queue 1 15).recBad = b ∧ ((s b).queue 1 15).st ≠ .draining)
      ∧ linkOk (6#4).toNat (16#5).toNat true = true := by decide +kernel

/-- Clearing EN under a peal that still issues, and under one that has been halted; a debug register while debug is disabled. -/
theorem wit_debug_clauses :
    (let s := (debugging .run).setEng 511 { (debugging .run).eng 511 with peal := some peal }
     (s.eng (s.dbgEng 15)).peal.isSome = true ∧ (s.eng (s.dbgEng 15)).mode = .run)
      ∧ ((debugging .halted).eng ((debugging .halted).dbgEng 15)).peal = none
      ∧ isDbgReg 0x208004 = true ∧ ({ opened with lc := .mfg } : State).boot.ready = true
      ∧ ({ opened with lc := .mfg } : State).debugEn.getLsbD 1 = false := by decide +kernel

/-- An abort of a direct command in boundary sampling. -/
theorem wit_direct_abort :
    let w := rawWord 0x03 0 0 0 7 0
    let s := (ready.setMau 31 { directUnit (some w) with abortReq := true }).setReg (0x400008 + 0x1000 * 31) 1#32
    (s.mau 31).direct = true ∧ (s.mau 31).cmd = some w ∧ (s.mau 31).directRefused w = false ∧ (s.mau 31).abortReq = true
      ∧ bit32 (s.reg (0x400008 + 0x1000 * 31)) 0 = true ∧ ready.boot.ready = true ∧ (directUnit none).cmd = none := by decide +kernel

/-! ## The words that the spec writes out -/

/-- The worked words of chapter 3 (VLD.16 and VBFCT.16) and of chapter 4 (KINIT.D1, KABS.D1, KPERM.D1, KSQZ.D1). -/
theorem test_worked_words :
    let f : VV := { vv0 with vb := 20#5, imm := 5#16 }
    let k : VV := { vv0 with vd := 0#5, va := 0#5, vb := 0#5 }
    decodeWord first 0x4004280000000600#64 = some (.vld first { vm0 with w := 1#2, vd := 20#5, sa := 0#5, off := 0x600#20 })
      ∧ decodeWord first 0x3404084A00000005#64 = some (.vbfct first { f with vd := 4#5, va := 4#5 })
      ∧ decodeWord first 0x34040A5A00000005#64 = some (.vbfct first { f with vd := 5#5, va := 5#5 })
      ∧ decodeWord first 0x34040C6A00000005#64 = some (.vbfct first { f with vd := 6#5, va := 6#5 })
      ∧ decodeWord first 0x7004000000000000#64 = some (.kinit first k)
      ∧ decodeWord first 0x7014002000000088#64 = some (.kabs first { k with va := 2#5, imm := 136#16 })
      ∧ decodeWord first 0x7024000000000000#64 = some (.kperm first k)
      ∧ decodeWord first 0x7034200000000080#64 = some (.ksqz first { k with vd := 16#5, imm := 128#16 }) := by decide +kernel

end Sys2Proof.Tests
end

section
/-!
REFUTATION. The clause of the statement about TMP_BATT_REC: a write of the Manager clears whatever bits of the stored word it
has as 1, the reserved bits [30:7] with the others, where the statement lets it reach the listed bits alone.
-/
namespace Sys2Proof.Machine

/-! ## A writer with the letter of every field -/

/-- Such a writer asks for no change of a field that is not its own. -/
theorem View.asks_of_letters_ones {v : View} {sup : Bool} (h : v.letters sup = ones) (w : W32) : v.asks sup w = false := by
  have hn : ~~~ones = (0#32 : W32) := by decide
  simp [View.asks, h, hn]

/-- The whole word goes through. -/
theorem View.allowed_of_letters_ones {v : View} {sup : Bool} (h : v.letters sup = ones) (w : W32) : v.allowed sup w = w := by
  have hn : ~~~ones = (0#32 : W32) := by decide
  have hw : w &&& ones = w := BitVec.and_allOnes
  simp [View.allowed, h, hn, hw]

/-- A full write of a listed register that is no debug register, by a writer with the letter of every field, acts by the
written word itself (R17, R18). -/
theorem writeOpen_of_letters_ones {s : State} {sup : Bool} {a : Nat} {v : View} (hv : s.pfView a = some v)
    (hd : isDbgReg a = false) (hl : v.letters sup = ones) (hm : v.mayWrite sup = true) (w : W32) (image : HostRead) :
    s.writeOpen sup a w true image = s.pfRegWrite a w image := by
  simp [State.writeOpen, hv, hd, hm, View.asks_of_letters_ones hl, View.allowed_of_letters_ones hl]

/-! ## TMP_BATT_REC -/

/-- TMP_BATT_REC reads as the stored word, its fields carry both letters, and its listed bits are W1C (R577). -/
theorem pfView_battRec (s : State) : s.pfView 0xA0002C = some ⟨s.tmp.battRec, ones, ones, 0#32, 0x8000007F#32⟩ := rfl

/-- After readiness a full write of the Manager to TMP_BATT_REC clears every stored bit that it has as 1. -/
theorem exec_registerWrite_battRec {s : State} (h : s.boot.ready = true) (value : BitVec 32) (image : HostRead) :
    exec (.registerWrite .manager 0xA0002C#26 value 15#4 image) s
      = .next { s with tmp := { s.tmp with battRec := s.tmp.battRec &&& ~~~value } } := by
  have hexec : exec (.registerWrite .manager 0xA0002C#26 value 15#4 image) s
      = .next (s.pfWrite fun s => s.writeOpen false 0xA0002C value true image) := rfl
  rw [hexec, State.pfWrite, if_pos h,
    writeOpen_of_letters_ones (pfView_battRec s) (by decide) rfl (by simp [View.mayWrite, View.letters, ones])]
  rfl

/-- A device after readiness whose TMP_BATT_REC holds the reserved bit 7. -/
def reservedBattBit : State :=
  { State.reset with boot := { Boot.reset with ready := true }, tmp := { Tmp.reset with battRec := 0x80#32 } }

/-- Refutes O56: a state may hold a reserved bit of TMP_BATT_REC, here bit 7; the Manager's write of that bit clears it,
where the statement masks the written word with 0x8000007F and so keeps it. The clause is stated for every state and does
not ask that the bits [30:7], which the register map gives as reserved, be 0. -/
theorem not_registerAccess : ¬ Obligations.RegisterAccess := by
  unfold Obligations.RegisterAccess
  intro h
  obtain ⟨hwrite, -, -⟩ := h reservedBattBit
  obtain ⟨-, -, -, -, hplain, -, -⟩ := hwrite 0xA0002C#26 0x80#32 15#4 .busError
  obtain ⟨-, -, -, hbatt⟩ := hplain rfl
  obtain ⟨t, hexec, ht⟩ := hbatt rfl
  rw [exec_registerWrite_battRec rfl] at hexec
  injection hexec with hnext
  have hcleared : t.tmp.battRec = 0x0#32 := by rw [← hnext]; rfl
  have hkept : t.tmp.battRec = 0x80#32 := by rw [ht]; rfl
  exact absurd (hcleared.symm.trans hkept) (by decide)

end Sys2Proof.Machine
end

section
/-!
SUPPORT. What a word that writes vector registers leaves alone, and the lanes of a share group after it is written.
-/
namespace Sys2Proof.Machine

/-! ## Words that write vector registers -/

/-- Marks that mend in two steps mend in one. -/
theorem MarksMend.trans {places : List ParityPlace} {e₁ e₂ e₃ : Engine} (h : MarksMend places e₁ e₂)
    (h' : MarksMend places e₂ e₃) : MarksMend places e₁ e₃ :=
  ⟨fun p hp => h.1 p (h'.1 p hp), fun p hn hp => h'.2 p hn (h.2 p hn hp)⟩

/-- More places may be allowed to mend. -/
theorem MarksMend.mono {a b : List ParityPlace} {e e' : Engine} (hab : a ⊆ b) (h : MarksMend a e e') : MarksMend b e e' :=
  ⟨h.1, fun p hn hp => h.2 p (fun hm => hn (hab hm)) hp⟩

/-- From `e` to `e'` only vector registers of a list changed, and of the parity marks only theirs were mended. -/
structure Engine.VregsChange (regs : List Loc) (e e' : Engine) : Prop where
  still : e'.still = Engine.still { e with vregs := e'.vregs, badParity := e'.badParity }
  marks : MarksMend (vregPlaces regs) e e'
  frame : ∀ r, Loc.v r ∉ regs → e'.vreg r = e.vreg r

/-- A longer list of registers has every place of a shorter one. -/
theorem vregPlaces_subset {a b : List Loc} (h : a ⊆ b) : vregPlaces a ⊆ vregPlaces b := fun _ hp => by
  obtain ⟨l, hl, he⟩ := List.mem_filterMap.1 hp
  exact List.mem_filterMap.2 ⟨l, h hl, he⟩

theorem Engine.VregsChange.refl (regs : List Loc) (e : Engine) : VregsChange regs e e :=
  ⟨rfl, marksMend_refl _ e, fun _ _ => rfl⟩

theorem Engine.VregsChange.trans {regs : List Loc} {e₁ e₂ e₃ : Engine} (h : VregsChange regs e₁ e₂)
    (h' : VregsChange regs e₂ e₃) : VregsChange regs e₁ e₃ where
  still := by
    have hset : Engine.still { e₂ with vregs := e₃.vregs, badParity := e₃.badParity }
        = { e₂.still with vregs := e₃.vregs, badParity := e₃.badParity } := rfl
    rw [h'.still, hset, h.still]
    rfl
  marks := h.marks.trans h'.marks
  frame r hr := (h'.frame r hr).trans (h.frame r hr)

theorem Engine.VregsChange.mono {a b : List Loc} {e e' : Engine} (hab : a ⊆ b) (h : VregsChange a e e') :
    VregsChange b e e' where
  still := h.still
  marks := h.marks.mono (vregPlaces_subset hab)
  frame r hr := h.frame r fun hm => hr (hab hm)

/-- Other registers after a register or pair is written. -/
theorem vreg_setWide_of_notMem (e : Engine) {pr : Bool} {d r : Nat} (v : Wide) (hr : Loc.v r ∉ formRegs pr d) :
    (e.setWide pr d v).vreg r = e.vreg r := by
  cases pr
  · have hd : d ≠ r := fun h => hr (by simp [formRegs, h])
    simp [Engine.setWide, vreg_setVreg, hd]
  · have hd : d ≠ r := fun h => hr (by simp [formRegs, h])
    have hd' : d + 1 ≠ r := fun h => hr (by simp [formRegs, h])
    simp [Engine.setWide, vreg_setVreg, hd, hd']

/-- Writing a register or pair changes the registers of its form alone. -/
theorem vregsChange_setWide (e : Engine) (pr : Bool) (d : Nat) (v : Wide) :
    Engine.VregsChange (formRegs pr d) e (e.setWide pr d v) :=
  ⟨still_setWide e pr d v, marks_setWide e pr d v, fun _ hr => vreg_setWide_of_notMem e v hr⟩

/-- Retiring leaves every lane. -/
@[simp] theorem laneOf_retire (e : Engine) (r : Row) (old : Engine) (w : Nat) (pr : Bool) (n i : Nat) :
    (e.retire r old).laneOf w pr n i = e.laneOf w pr n i := rfl

/-- A word that issues and only writes vector registers of a list leaves the engine that its effect and retiring make. -/
theorem vectorsChange_of_onEngine {id : EngId} {row : Engine → Row} {s : State} {g : Engine → Engine} {regs : List Loc}
    {P : Engine → Prop} (h : (s.eng id.idx).MayIssue (row (s.eng id.idx)))
    (hg : Engine.VregsChange regs (s.eng id.idx) (g (s.eng id.idx)))
    (hP : P ((g (s.eng id.idx)).retire (row (s.eng id.idx)) (s.eng id.idx))) :
    ∃ t, issueWord id row (onEngine id g) s = .next t ∧ VectorsChange id s regs P t :=
  ⟨_, issueWord_onEngine h, _, rfl, hg.still, hg.marks, hg.frame, hP⟩

/-- What is known of the engine after a word may be weakened. -/
theorem VectorsChange.imp {id : EngId} {s t : State} {regs : List Loc} {P Q : Engine → Prop} (hPQ : ∀ e, P e → Q e)
    (h : VectorsChange id s regs P t) : VectorsChange id s regs Q t := by
  obtain ⟨e', honly, hstill, hmarks, hframe, hp⟩ := h
  exact ⟨e', honly, hstill, hmarks, hframe, hPQ e' hp⟩

/-! ## Lanes of a register or pair -/

/-- A register or pair depends on its own registers alone. -/
theorem wide_congr {e e' : Engine} {pr : Bool} {d : Nat} (h : ∀ r, Loc.v r ∈ formRegs pr d → e'.vreg r = e.vreg r) :
    e'.wide pr d = e.wide pr d := by
  cases pr
  · simp [Engine.wide, h d (by simp [formRegs])]
  · simp [Engine.wide, h d (by simp [formRegs]), h (d + 1) (by simp [formRegs])]

/-- Every lane below the element count lies in the register or pair (R112). -/
theorem lane_fits {w i : Nat} {pr : Bool} (hi : i < countOf w pr) : w * i + w ≤ if pr then 8192 else 4096 := by
  have hle := Nat.mul_le_mul_left w (Nat.succ_le_of_lt hi)
  rw [Nat.mul_succ] at hle
  exact Nat.le_trans hle (Nat.mul_div_le _ w)

/-- Such a lane lies in the widest form. -/
theorem lane_fits_wide {w i : Nat} {pr : Bool} (hi : i < countOf w pr) : w * i + w ≤ 8192 :=
  Nat.le_trans (lane_fits hi) (by split <;> decide)

/-- A register or pair reads back the bits it was written with, as many as it has. -/
theorem getLsbD_wide_setWide (e : Engine) (pr : Bool) (d : Nat) (v : Wide) {k : Nat}
    (hk : k < if pr then 8192 else 4096) : ((e.setWide pr d v).wide pr d).getLsbD k = v.getLsbD k := by
  cases pr
  · have hk' : k < 4096 := hk
    have hk'' : k < 8192 := by omega
    simp [Engine.wide, Engine.setWide, vreg_setVreg, hk', hk'']
  · have hk' : k < 8192 := hk
    have hlo : (e.setWide true d v).vreg d = v.setWidth 4096 := by simp [Engine.setWide, vreg_setVreg]
    have hhi : (e.setWide true d v).vreg (d + 1) = (v >>> 4096).setWidth 4096 := by simp [Engine.setWide, vreg_setVreg]
    simp only [Engine.wide, if_true, hlo, hhi, BitVec.getLsbD_setWidth, BitVec.getLsbD_append, hk', decide_true,
      Bool.true_and, BitVec.getLsbD_ushiftRight]
    by_cases hc : k < 4096
    · simp [hc]
    · have h1 : k - 4096 < 4096 := by omega
      have h2 : 4096 + (k - 4096) = k := by omega
      simp [hc, h1, h2]

/-- A lane of a register or pair that was just written is that lane of what was written. -/
theorem laneOf_setWide (e : Engine) {w i : Nat} {pr : Bool} (d : Nat) (v : Wide) (hi : i < countOf w pr) :
    (e.setWide pr d v).laneOf w pr d i = lane w v i := by
  apply Nat.eq_of_testBit_eq
  intro k
  rw [Engine.laneOf, testBit_lane, testBit_lane]
  by_cases hk : k < w
  · have := lane_fits hi
    rw [getLsbD_wide_setWide e pr d v (by omega)]
  · simp [hk]

/-- Lanes of a register or pair after the active ones are written. -/
theorem laneOf_setWide_mapLanes (e : Engine) {w i : Nat} {pr : Bool} (d : Nat) (act : Nat → Bool) (g : Nat → Nat)
    (hi : i < countOf w pr) :
    (e.setWide pr d (mapLanes w act g (e.wide pr d) (countOf w pr))).laneOf w pr d i
      = if act i then g i % 2 ^ w else e.laneOf w pr d i := by
  rw [laneOf_setWide e d _ hi, lane_mapLanes w act g _ _ i (lane_fits_wide hi)]
  simp [hi, Engine.laneOf]

/-! ## Share groups -/

/-- The registers of different shares differ (R150). -/
theorem notMem_formRegs_shareReg {pr : Bool} {b j k r : Nat} (hjk : j ≠ k) (hr : Loc.v r ∈ formRegs pr (shareReg pr b j)) :
    Loc.v r ∉ formRegs pr (shareReg pr b k) := by
  cases pr <;> simp [formRegs, shareReg] at hr ⊢ <;> omega

/-- Share `j` of a group that is read. -/
theorem getD_shares (e : Engine) {ord j : Nat} (pr : Bool) (b : Nat) (hj : j < sharesOf ord) :
    (e.shares ord pr b).getD j 0#8192 = e.wide pr (shareReg pr b j) := by
  simp [Engine.shares, List.getD_eq_getElem?_getD, hj]

/-- Writing shares from share `j` on changes their registers alone. -/
theorem vregsChange_setShares {regs : List Loc} {pr : Bool} {b : Nat} (l : List Wide) (e : Engine) (j : Nat)
    (hregs : ∀ k, k < l.length → formRegs pr (shareReg pr b (j + k)) ⊆ regs) :
    Engine.VregsChange regs e (e.setShares pr b j l) := by
  induction l generalizing e j with
  | nil => exact .refl _ _
  | cons v t ih =>
    refine .trans ((vregsChange_setWide e pr (shareReg pr b j) v).mono ?_) (ih _ (j + 1) fun k hk => ?_)
    · simpa using hregs 0 (by simp)
    · have := hregs (k + 1) (by simpa using hk)
      rwa [Nat.add_right_comm, Nat.add_assoc]

/-- Writing shares from share `j` on leaves every share below. -/
theorem wide_setShares_below {pr : Bool} {b k : Nat} (l : List Wide) (e : Engine) {j : Nat} (hk : k < j) :
    (e.setShares pr b j l).wide pr (shareReg pr b k) = e.wide pr (shareReg pr b k) := by
  induction l generalizing e j with
  | nil => rfl
  | cons v t ih =>
    rw [Engine.setShares, ih _ (Nat.lt_succ_of_lt hk)]
    exact wide_congr fun r hr => vreg_setWide_of_notMem e v (notMem_formRegs_shareReg (Nat.ne_of_lt hk) hr)

/-- A lane of a share that was just written is that lane of what was written. -/
theorem laneOf_setShares {w i : Nat} {pr : Bool} {b : Nat} (hi : i < countOf w pr) (l : List Wide) (e : Engine) (j k : Nat)
    (hk : k < l.length) :
    (e.setShares pr b j l).laneOf w pr (shareReg pr b (j + k)) i = lane w (l.getD k 0#8192) i := by
  induction l generalizing e j k with
  | nil => simp at hk
  | cons v t ih =>
    cases k with
    | zero =>
      rw [Nat.add_zero j, Engine.setShares, Engine.laneOf, wide_setShares_below t _ (Nat.lt_succ_self j)]
      exact laneOf_setWide e _ v hi
    | succ k =>
      have := ih (e.setWide pr (shareReg pr b j) v) (j + 1) k (by simpa using hk)
      rwa [Nat.add_right_comm, Nat.add_assoc] at this

/-- Writing the active elements of a group changes the registers of the group alone. -/
theorem vregsChange_writeShares (f : VV) (ord : Nat) (b : BitVec 5) (g : Nat → Nat → Nat) (e : Engine) :
    Engine.VregsChange (groupRegs ord f.pr b.toNat) e (writeShares f ord b g e) := by
  refine vregsChange_setShares _ e 0 fun k hk x hx => ?_
  simp only [groupRegs, List.mem_flatMap, List.mem_range]
  exact ⟨k, by simpa using hk, by simpa using hx⟩

/-- The elements of a group after the active ones are written, each narrowed to its lane (R113, R152). -/
theorem laneOf_writeShares (f : VV) {ord j i : Nat} (b : BitVec 5) (g : Nat → Nat → Nat) (e : Engine) (hj : j < sharesOf ord)
    (hi : i < countOf (widthOf f.w) f.pr) :
    (writeShares f ord b g e).laneOf (widthOf f.w) f.pr (shareReg f.pr b.toNat j) i =
      if e.active (widthOf f.w) f.pr f.pm i then g j i % 2 ^ widthOf f.w
      else e.laneOf (widthOf f.w) f.pr (shareReg f.pr b.toNat j) i := by
  have hw := laneOf_setShares (b := b.toNat) hi
    ((List.range (sharesOf ord)).map fun j => mapLanes (widthOf f.w) (e.active (widthOf f.w) f.pr f.pm) (g j)
      ((e.shares ord f.pr b.toNat).getD j 0#8192) (countOf (widthOf f.w) f.pr)) e 0 j (by simpa using hj)
  rw [Nat.zero_add] at hw
  rw [writeShares, hw]
  simp only [List.getD_eq_getElem?_getD, List.getElem?_map, List.getElem?_range hj, Option.map_some, Option.getD_some]
  rw [← List.getD_eq_getElem?_getD, getD_shares e _ _ hj, lane_mapLanes _ _ _ _ _ _ (lane_fits_wide hi)]
  simp [hi, Engine.laneOf]

/-- The active elements of share `j` of the group `b` took `val i j`, narrowed to the lane; every other lane and register keeps its
value (R113, R152). -/
def SharesTake (id : EngId) (f : VV) (ord : Nat) (b : BitVec 5) (s : State) (val : Nat → Nat → Nat) : State → Prop :=
  let e := s.eng id.idx
  let w := widthOf f.w
  VectorsChange id s (groupRegs ord f.pr b.toNat) fun e' => ∀ j, j < sharesOf ord → ∀ i, i < countOf w f.pr →
    e'.laneOf w f.pr (shareReg f.pr b.toNat j) i =
      if e.active w f.pr f.pm i then val i j % 2 ^ w else e.laneOf w f.pr (shareReg f.pr b.toNat j) i

/-- A word that issues and writes the active elements of a group. -/
theorem sharesTake_of_onEngine {id : EngId} {f : VV} {ord : Nat} {b : BitVec 5} {row : Engine → Row} {s : State}
    {g : Engine → Nat → Nat → Nat} (h : (s.eng id.idx).MayIssue (row (s.eng id.idx))) :
    ∃ t, issueWord id row (onEngine id fun e => writeShares f ord b (g e) e) s = .next t
      ∧ SharesTake id f ord b s (fun i j => g (s.eng id.idx) j i) t :=
  vectorsChange_of_onEngine h (vregsChange_writeShares f ord b _ _) fun _ hj _ hi => laneOf_writeShares f b _ _ hj hi

end Sys2Proof.Machine
end

section
/-!
SUPPORT. The arithmetic of single elements: residues, Montgomery products, and shares that combine to a value.
-/
namespace Sys2Proof.Machine

/-- The residue of a difference, without negative numbers. -/
theorem imod_sub_eq (a b : Nat) {m : Nat} (hm : 0 < m) : imod ((a : Int) - b) m = (a + (m - b % m)) % m := by
  have hcast : ((a : Int) - b) = ((a + (m - b % m) : Nat) : Int) + (m : Int) * (-((b / m : Nat) : Int) - 1) := by
    have hlt := Nat.mod_lt b hm
    have hdiv : (m : Int) * ((b / m : Nat) : Int) + ((b % m : Nat) : Int) = b := by
      rw [← Int.natCast_mul, ← Int.natCast_add, Nat.div_add_mod]
    rw [Int.mul_sub, Int.mul_neg, Int.mul_one, Int.natCast_add, Int.natCast_sub (Nat.le_of_lt hlt)]
    omega
  rw [imod, hcast, Int.add_mul_emod_self_left]
  exact Int.toNat_natCast _

/-- The model's inverse of `2 ^ w` is one, modulo an odd number (R134). -/
theorem invBeta_mul_mod (w : Nat) {q : Nat} (hodd : q % 2 = 1) : invBeta w q * 2 ^ w % q = 1 % q := by
  have htwo : (q + 1) / 2 * 2 = q + 1 := by omega
  calc invBeta w q * 2 ^ w % q = ((q + 1) / 2) ^ w * 2 ^ w % q := Nat.mod_mul_mod ..
    _ = (q + 1) ^ w % q := by rw [← Nat.mul_pow, htwo]
    _ = 1 ^ w % q := by rw [Nat.pow_mod, Nat.add_mod_left, ← Nat.pow_mod]
    _ = 1 % q := by rw [Nat.one_pow]

/-- The model's Montgomery product is one, for an odd modulus (R134). -/
theorem isMont_montMul (w : Nat) {q : Nat} (hodd : q % 2 = 1) (x y : Nat) : IsMont w q x y (montMul w q x y) := by
  refine ⟨Nat.mod_lt _ (by omega), ?_⟩
  calc montMul w q x y * 2 ^ w % q = x * y % q * invBeta w q * 2 ^ w % q := Nat.mod_mul_mod ..
    _ = x * y * (invBeta w q * 2 ^ w) % q := by rw [Nat.mul_assoc, Nat.mod_mul_mod]
    _ = x * y * 1 % q := by rw [Nat.mul_mod, invBeta_mul_mod w hodd, ← Nat.mul_mod]
    _ = x * y % q := by rw [Nat.mul_one]

/-- Adding up modulo `m` along a list gives the residue of the sum. -/
theorem foldl_addMod (m : Nat) (l : List Nat) (n : Nat) : l.foldl (fun a b => (a + b) % m) (n % m) = (n + l.sum) % m := by
  induction l generalizing n with
  | nil => simp
  | cons x t ih => rw [List.foldl_cons, Nat.mod_add_mod, ih, List.sum_cons, Nat.add_assoc]

/-- Arithmetic shares combine to the residue of their sum (R149). -/
theorem combine_arith_eq_sum (m : Nat) (l : List Nat) : (Kind.arith m).combine l = l.sum % m := by
  have := foldl_addMod m l 0
  rwa [Nat.zero_mod, Nat.zero_add] at this

/-- Share 0 balances the other shares: together they combine to the value (R149). -/
theorem combine_arith_share0 {m : Nat} (hm : 0 < m) (x : Nat) (masks : List Nat) :
    (Kind.arith m).combine ((Kind.arith m).share0 x masks :: masks) = x % m := by
  have hshare : (Kind.arith m).share0 x masks = (x + (m - masks.sum % m)) % m := by
    rw [List.sum_eq_foldl]
    exact imod_sub_eq x _ hm
  have hbalance : m - masks.sum % m + masks.sum = m * (masks.sum / m + 1) := by
    have hlt := Nat.mod_lt masks.sum hm
    have hdiv := Nat.div_add_mod masks.sum m
    rw [Nat.mul_succ]
    omega
  rw [combine_arith_eq_sum, List.sum_cons, hshare, Nat.mod_add_mod, Nat.add_assoc, hbalance, Nat.add_mul_mod_self_left]

end Sys2Proof.Machine
end

section
/-! PROOF. The share words without randomness act share by share (R157). -/
namespace Sys2Proof.Machine

/-! ## The kinds of the share words -/

/-- The residues of a legal arithmetic word are those of its modulus (R151). -/
theorem arithKind_of_shMod {f : VV} {e : Engine} {m : Nat} (h : shMod f e = some m) : arithKind f e = some (.arith m) := by
  simp [arithKind, h]

/-- With P2 and MS 0 a Boolean word is legal (R151). -/
theorem boolKind_of_zero {f : VV} (e : Engine) (hp : shP2 f = false) (hms : f.ms = 0#3) : boolKind f e = some .boolean := by
  simp [boolKind, hp, hms]

/-! ## What the three shapes of word write -/

/-- The values of a share word may be written in another way that agrees with the first. -/
theorem SharesTake.congr {id : EngId} {f : VV} {ord : Nat} {b : BitVec 5} {s t : State} {u v : Nat → Nat → Nat}
    (h : SharesTake id f ord b s u t) (huv : ∀ i j, u i j = v i j) : SharesTake id f ord b s v t := by
  have huv' : u = v := funext fun i => funext fun j => huv i j
  exact huv' ▸ h

/-- A share-by-share operation of two groups of a kind that the word may have. -/
theorem sharesTake_shareBin {id : EngId} {f : VV} {s : State} {kind : VV → Engine → Option Kind} {k : Kind}
    (op : Kind → Nat → Nat → Nat → Nat) (hk : kind f (s.eng id.idx) = some k)
    (h : (s.eng id.idx).MayIssue (shRow f (shLegal f [.vd, .va, .vb] [f.vd, f.va, f.vb] [] && true)
      (slotReads f.ms ++ shGroup f f.va ++ shGroup f f.vb) (shGroup f f.vd) (16, 24) (20, 28) (0, 0))) :
    ∃ t, shareBin id f kind op s = .next t ∧ SharesTake id f (shOrd f) f.vd s (fun i j => op k (widthOf f.w)
      ((shElem f (s.eng id.idx) f.va i).getD j 0) ((shElem f (s.eng id.idx) f.vb i).getD j 0)) t := by
  have hlegal : (kind f (s.eng id.idx)).isSome = true := by simp [hk]
  have hkind : (kind f (s.eng id.idx)).getD .boolean = k := by simp [hk]
  rw [← hlegal] at h
  rw [← hkind]
  exact sharesTake_of_onEngine h

/-- A public operand into share 0, of a kind that the word may have; the other shares are copied. -/
theorem sharesTake_sharePub {id : EngId} {f : VV} {s : State} {kind : VV → Engine → Option Kind} {k : Kind}
    (op : Kind → Nat → Nat → Nat) (hk : kind f (s.eng id.idx) = some k)
    (h : (s.eng id.idx).MayIssue (shRow f (shLegal f [.vd, .va, .vb] [f.vd, f.va] [f.vb] && true)
      (slotReads f.ms ++ shGroup f f.va ++ formRegs f.pr f.vb.toNat) (shGroup f f.vd) (8, 8) (12, 12) (0, 0))) :
    ∃ t, sharePub id f kind op s = .next t ∧ SharesTake id f (shOrd f) f.vd s (fun i j =>
      if j = 0 then op k ((shElem f (s.eng id.idx) f.va i).getD 0 0) (elem f f.vb (s.eng id.idx) i)
      else (shElem f (s.eng id.idx) f.va i).getD j 0) t := by
  have hlegal : (kind f (s.eng id.idx)).isSome = true := by simp [hk]
  have hkind : (kind f (s.eng id.idx)).getD .boolean = k := by simp [hk]
  rw [← hlegal] at h
  obtain ⟨t, hexec, ht⟩ : ∃ t, sharePub id f kind op s = .next t ∧ SharesTake id f (shOrd f) f.vd s _ t :=
    sharesTake_of_onEngine h
  refine ⟨t, hexec, ht.congr fun i j => ?_⟩
  by_cases hj : j = 0
  · simp [hj, hkind]
  · simp [hj]

/-- SMMULC: every share by the public operand, in Montgomery form. -/
theorem sharesTake_smmulc {id : EngId} {f : VV} {s : State} {q : Nat} (hp : shP2 f = false)
    (hq : (s.eng id.idx).modulus f.ms f.w = some q)
    (h : (s.eng id.idx).MayIssue (shRow f (shLegal f [.vd, .va, .vb] [f.vd, f.va] [f.vb] && true)
      (slotReads f.ms ++ shGroup f f.va ++ formRegs f.pr f.vb.toNat) (shGroup f f.vd) (16, 24) (20, 28) (0, 0))) :
    ∃ t, execSmmulc id f s = .next t ∧ SharesTake id f (shOrd f) f.vd s (fun i j => montMul (widthOf f.w) q
      ((shElem f (s.eng id.idx) f.va i).getD j 0) (elem f f.vb (s.eng id.idx) i)) t := by
  have hlegal : (shLegal f [.vd, .va, .vb] [f.vd, f.va] [f.vb] && true)
      = (shLegal f [.vd, .va, .vb] [f.vd, f.va] [f.vb] && !shP2 f && ((s.eng id.idx).modulus f.ms f.w).isSome) := by
    simp [hp, hq]
  have hmod : modOf f (s.eng id.idx) = q := by simp [modOf, hq]
  rw [hlegal] at h
  rw [← hmod]
  exact sharesTake_of_onEngine h

/-- Settles O25: each word writes the active elements of its group, and the value of each share is that of its row; the
residue of a difference is taken without negative numbers, and the model's Montgomery product is one for every odd modulus. -/
theorem shareByShare : Obligations.ShareByShare := by
  unfold Obligations.ShareByShare
  intro id f s
  refine ⟨fun m hm hpos => ⟨fun h => ⟨?smadd, ?smsub⟩, fun h => ?saddp⟩, fun hp hms => ⟨fun h => ?sxor, fun h => ?sxorp⟩,
    fun q hp hq hodd _ _ h => ⟨_, fun i j => isMont_montMul _ hodd _ _, sharesTake_smmulc hp hq h⟩⟩
  case smadd => exact sharesTake_shareBin (fun k _ a b => (a + b) % k.modulus) (arithKind_of_shMod hm) h
  case smsub =>
    obtain ⟨t, hexec, ht⟩ := sharesTake_shareBin (fun k _ a b => imod ((a : Int) - b) k.modulus) (arithKind_of_shMod hm) h
    exact ⟨t, hexec, ht.congr fun i j => imod_sub_eq _ _ hpos⟩
  case saddp => exact sharesTake_sharePub (fun k a b => (a + b) % k.modulus) (arithKind_of_shMod hm) h
  case sxor => exact sharesTake_shareBin (fun _ _ a b => a ^^^ b) (boolKind_of_zero _ hp hms) h
  case sxorp => exact sharesTake_sharePub (fun _ a b => a ^^^ b) (boolKind_of_zero _ hp hms) h

end Sys2Proof.Machine
end

section
/-! PROOF. The sampling words complete with their samples and counts (R168, R169). -/
namespace Sys2Proof.Machine

/-! ## The centred binomial sampler -/

/-- A residue lies below its modulus. -/
theorem imod_lt (x : Int) {m : Nat} (hm : 0 < m) : imod x m < m := by
  have hm' : (0 : Int) < m := Int.natCast_pos.2 hm
  have hlt := Int.emod_lt_of_pos x hm'
  have hpos := Int.emod_nonneg x (Int.ne_of_gt hm')
  unfold imod
  omega

/-- A coefficient is a residue modulo 3329 (R168). -/
theorem cbdCoeff_lt (v : Wide) (eta i : Nat) : cbdCoeff v eta i < 3329 := imod_lt _ (by decide)

/-- The combination of the Boolean shares that VCBD reads, its bit string (R168). -/
def cbdBits (f : VV) (e : Engine) : Wide := (e.shares (kcOrd f) false f.va.toNat).foldl (fun a b => a ^^^ b) 0#8192

/-- Element `i` of share `j` of a VCBD result: a mask above share 0, and in share 0 what balances the masks (R168). -/
def cbdShare (f : VV) (e : Engine) (j i : Nat) : Nat :=
  let masks := freshMasks e (.arith 3329) 16 (kcOrd f) i
  if j = 0 then (Kind.arith 3329).share0 (cbdCoeff (cbdBits f e) f.imm.toNat i) masks else masks.getD (j - 1) 0

/-- The row of VCBD (R168, R181). -/
def vcbdRow (f : VV) : Row :=
  let ord := kcOrd f
  let eta := f.imm.toNat
  let occ := [8, 40, 112].getD ord 112
  let d := [0, 8, 32].getD ord 32
  { legal := kcLegal f [.vd, .va, .imm, .pm] && (eta == 2 || eta == 3) && groupOk ord false f.vd && groupOk ord false f.va
    vec := true
    draw := d
    reads := [.vl, .p f.pm.toNat] ++ groupRegs ord false f.va.toNat
    writes := (groupRegs ord false f.vd.toNat).map fun l => (l, occ + 4)
    holds := (.vxu, occ) :: (if d = 0 then [] else [(.mrg, d)]) }

/-- The form VCBD writes in: 16 bits, no pair (log entry 14). -/
def cbdForm (f : VV) : VV := { f with w := 1#2, pr := false }

theorem widthOf_cbdForm (f : VV) : widthOf (cbdForm f).w = 16 := rfl
theorem countOf_cbdForm (f : VV) : countOf 16 (cbdForm f).pr = 256 := by simp [countOf, cbdForm]

/-- VCBD writes `cbdShare` into the active elements of its group. -/
theorem execVcbd_eq (id : EngId) (f : VV) (s : State) :
    execVcbd id f s = issueWord id (fun _ => vcbdRow f)
      (onEngine id fun e => writeShares (cbdForm f) (kcOrd f) f.vd (cbdShare f e) e) s := by
  simp only [writeShares, widthOf_cbdForm, countOf_cbdForm]
  rfl

/-- The shares of an element of a VCBD result are share 0 and the masks. -/
theorem map_cbdShare (f : VV) (e : Engine) (i : Nat) :
    ((List.range (sharesOf (kcOrd f))).map fun j => cbdShare f e j i) =
      let masks := freshMasks e (.arith 3329) 16 (kcOrd f) i
      (Kind.arith 3329).share0 (cbdCoeff (cbdBits f e) f.imm.toNat i) masks :: masks := by
  rw [sharesOf, List.range_succ_eq_map, List.map_cons, List.map_map]
  refine congrArg (List.cons _) (List.map_congr_left fun j hj => ?_)
  simp [cbdShare, freshMasks, List.getD_eq_getElem?_getD, List.mem_range.1 hj]

/-- The shares of an element of a VCBD result combine to its coefficient (R149, R168). -/
theorem combine_cbdShare (f : VV) (e : Engine) (i : Nat) :
    (Kind.arith 3329).combine ((List.range (sharesOf (kcOrd f))).map fun j => cbdShare f e j i)
      = cbdCoeff (cbdBits f e) f.imm.toNat i := by
  rw [map_cbdShare, combine_arith_share0 (by decide), Nat.mod_eq_of_lt (cbdCoeff_lt _ _ _)]

/-- Every share of a VCBD result is a residue modulo 3329, so it fits its lane. -/
theorem cbdShare_lt (f : VV) (e : Engine) {i j : Nat} (hj : j < sharesOf (kcOrd f)) : cbdShare f e j i < 3329 := by
  have hmem : cbdShare f e j i ∈ (List.range (sharesOf (kcOrd f))).map fun j => cbdShare f e j i :=
    List.mem_map.2 ⟨j, List.mem_range.2 hj, rfl⟩
  rw [map_cbdShare, List.mem_cons] at hmem
  rcases hmem with hshare | hmask
  · exact hshare ▸ imod_lt _ (by decide)
  · obtain ⟨k, -, hk⟩ := List.mem_map.1 hmask
    exact hk ▸ Nat.mod_lt _ (by decide)

/-! ## The rejection sampler -/

/-- Writing a register or pair leaves the scalar registers. -/
@[simp] theorem sreg_setWide (e : Engine) (pr : Bool) (d n : Nat) (v : Wide) : (e.setWide pr d v).sreg n = e.sreg n := by
  cases pr <;> rfl

/-- Writing a scalar register leaves the vector registers. -/
@[simp] theorem vreg_setSreg (e : Engine) (d n : Nat) (v : W64) : (e.setSreg d v).vreg n = e.vreg n := by
  unfold Engine.setSreg
  split <;> rfl
@[simp] theorem laneOf_setSreg (e : Engine) (d : Nat) (v : W64) (w : Nat) (pr : Bool) (n i : Nat) :
    (e.setSreg d v).laneOf w pr n i = e.laneOf w pr n i := by
  unfold Engine.setSreg
  split <;> rfl

/-- Writing a vector register and then a scalar register changes the registers and their parity marks alone. -/
theorem still_setSreg_setWide (e : Engine) (d n : Nat) (v : Wide) (x : W64) :
    let e' := (e.setWide false d v).setSreg n x
    e'.still = Engine.still { e with vregs := e'.vregs, sregs := e'.sregs, badParity := e'.badParity } := by
  unfold Engine.setSreg
  dsimp only
  split <;> rfl

/-- Of the parity marks only theirs are mended. -/
theorem marks_setSreg_setWide (e : Engine) (d n : Nat) (v : Wide) (x : W64) :
    MarksMend [.sreg n, .vreg d] e ((e.setWide false d v).setSreg n x) :=
  ((marks_setWide e false d v).mono (by simp [vregPlaces, formRegs])).trans
    ((marks_setSreg (e.setWide false d v) n x).1.mono (by simp))

/-- Settles O28: the shares of a VCBD result are masks and what balances them, so they combine to the coefficient, and each
fits its lane; VSREJ writes the accepted candidates into the lanes from s[ss] on, then s[ss]. -/
theorem samplers : Obligations.Samplers := by
  unfold Obligations.Samplers
  intro id f s
  refine ⟨fun h => ?vcbd, fun h => ?vsrej⟩
  case vcbd =>
    obtain ⟨t, hexec, ht⟩ := sharesTake_of_onEngine (f := cbdForm f) (ord := kcOrd f) (b := f.vd) (g := cbdShare f)
      (row := fun _ => vcbdRow f) h
    refine ⟨t, (execVcbd_eq id f s).trans hexec, ht.imp fun e' hlanes i hi => ?_⟩
    have hlane (j : Nat) (hj : j < sharesOf (kcOrd f)) : e'.laneOf 16 false (f.vd.toNat + j) i =
        if (s.eng id.idx).active 16 false f.pm i then cbdShare f (s.eng id.idx) j i
        else (s.eng id.idx).laneOf 16 false (f.vd.toNat + j) i := by
      have hfit : cbdShare f (s.eng id.idx) j i % 2 ^ 16 = cbdShare f (s.eng id.idx) j i :=
        Nat.mod_eq_of_lt (Nat.lt_trans (cbdShare_lt f _ hj) (by decide))
      rw [← hfit]
      exact hlanes j hj i (by rwa [widthOf_cbdForm, countOf_cbdForm])
    refine ⟨fun hact => ?_, fun hact j hj => by simp [hlane j hj, hact]⟩
    rw [← cbdBits, ← combine_cbdShare]
    exact congrArg _ (List.map_congr_left fun j hj => by simp [hlane j (List.mem_range.1 hj), hact])
  case vsrej =>
    refine ⟨_, issueWord_onEngine h, _, rfl, still_setSreg_setWide _ _ _ _ _, marks_setSreg_setWide _ _ _ _ _,
      fun r hr => ?_, fun i hi => ?_, fun r => ?_⟩
    · have hreg : Loc.v r ∉ formRegs false f.vd.toNat := by simpa [formRegs] using hr
      simp [vreg_setWide_of_notMem _ _ hreg]
    · rw [laneOf_retire, laneOf_setSreg, laneOf_setWide_mapLanes _ _ _ _ hi]
      simp
    · simp [sreg_setSreg]

end Sys2Proof.Machine
end

section
/-!
REFUTATION. The clause of the statement about the result word: a library score leaves it at RES_OFF of the work extent as far
as the extent reaches, where the statement lets it stand there whole for every peal that an engine may hold.
-/
namespace Sys2Proof.Machine

/-! ## A work extent too short for the result word -/

/-- A CSM_WORK extent of five bytes: OUT_LEN and STATUS of a result word at its start lie in it, ACCEPT does not (R222). -/
def shortWork : Resv := { kind := 3, place := 0, offset := 0, length := 5, winStart := 0, winEnd := 0 }

/-- A single peal of call 1 for Classic McEliece decapsulation, its result word at the start of that extent. -/
def shortPeal : Peal :=
  { call := 1, start := 0, len := 100, attempt := false, frame := 0, scrubbed := false
    var := { opcode := 0x97, vflags := 0, entry := 0, pealLen := 100, attEntry := 0, maxAttempts := 0, attLen := 0
             resOff := 0, inMax := 0, outMax := 0, resvs := [shortWork] } }

/-- Its call: the descriptor has the opcode and zeros. -/
def shortCall : Call := newCall 1 0 0#16 (padTo 64 [0x97#8]) 0 0 0

/-- The first engine of the device. -/
def engineZero : EngId := { cl := 0#4, en := 0#5 }

/-- The device after reset, but that its first engine runs that peal. -/
def shortServing : State :=
  (State.reset.setEng 0 { Engine.reset with mode := .run, peal := some shortPeal }).setCall 1 (some shortCall)

/-- Nothing that the statement asks of a serving engine is broken. -/
theorem serving_shortServing : Serving engineZero shortServing shortPeal shortCall where
  peal := rfl
  call := rfl
  run := rfl
  open_ := rfl
  good := by decide +kernel

/-- R201 refuses such a variant for its work extent, whatever else the image holds. -/
theorem badVariant_short (h : ScoreHdr) (cls : Nat) : badVariant h cls shortPeal.var = true := by
  have hfilter : (shortPeal.var.resvs.filter fun r => r.kind == 3) = [shortWork] := rfl
  have hshort : decide (shortWork.length < shortPeal.var.resOff + 8) = true := rfl
  simp [badVariant, hfilter, hshort]

/-- The score of the decapsulation runs to its end, and byte 5 of its result word, ACCEPT, is not stored. -/
theorem exec_mceDecaps_short : ∃ t, exec (.mceDecaps engineZero) shortServing = .next t
    ∧ rdByte (t.cl (engineZero.idx / 32)).csm
        (extAddr shortWork (engineZero.idx % 32) shortPeal.frame (shortPeal.var.resOff + 5)) = 0#8 :=
  ⟨_, rfl, by decide +kernel⟩

/-- Refutes O30: an engine may hold a peal whose work extent is five bytes long; the accepting score of a decapsulation then
stores OUT_LEN and STATUS alone, and the byte for ACCEPT reads 0, where the statement wants 1. The score verifier refuses
such a variant (R201), but the statement is about every peal and does not ask that eight bytes from RES_OFF on lie in the
extent. -/
theorem not_libraryMakes : ¬ Obligations.LibraryMakes := by
  unfold Obligations.LibraryMakes
  intro h
  obtain ⟨-, -, -, -, hmce, -⟩ := h engineZero shortServing shortPeal shortCall serving_shortServing
  have hsingle : shortPeal.var.chain ≠ true := by decide
  obtain ⟨t, hexec, hends⟩ := hmce 0 (by decide) (by decide) fun hchain => absurd hchain hsingle
  obtain ⟨-, -, -, -, -, -, -, hresult⟩ := hends
  obtain ⟨u, hexec', hlost⟩ := exec_mceDecaps_short
  have htu : t = u := by
    rw [hexec] at hexec'
    injection hexec'
  have hstored := hresult shortWork rfl 5 (by decide)
  rw [htu, hlost] at hstored
  exact absurd hstored (by decide)

end Sys2Proof.Machine
end
